-- ==== Sys2Proof/Word.lean ====
section
/-! DEFINITION. The word types: the core's 64-bit word, a block of four words and a bank of ten. -/

namespace Sys2Proof

/-- Every datum the core computes on: an unsigned 64-bit word (00_scope R2). `+` wraps modulo 2^64. -/
abbrev Word := BitVec 64

/-- M = 2^64 - 1, the all-ones word and the counter's sentinel (00_scope section 4, 30_encoding R64). -/
abbrev allOnes : Word := 0xFFFFFFFFFFFFFFFF#64

/-- The word with only bit 63 set: the top half-word of the root cursor (30_encoding R61). -/
abbrev topBit : Word := 0x8000000000000000#64

/-- Four 64-bit words: a key, a plaintext, the working state or an output block (00_scope R1, W = 4). -/
structure Block where
  x0 : Word
  x1 : Word
  x2 : Word
  x3 : Word
  deriving DecidableEq, Repr

/-- Ten like things, numbered as the words of a state image (30_encoding R60) and the registers of a bank. -/
structure Bank (α : Type) where
  w0 : α
  w1 : α
  w2 : α
  w3 : α
  w4 : α
  w5 : α
  w6 : α
  w7 : α
  w8 : α
  w9 : α
  deriving DecidableEq, Repr

/-- A state image: the ten words key[0..4], path[0..2], counter[0..2], cursor[0..2] of a GeneratorState
(30_encoding R60). The core holds states only in this form. -/
abbrev Image := Bank Word

/-- The field view of a GeneratorState (30_encoding R61, R66). -/
structure GenState where
  key     : Block
  path    : BitVec 128
  counter : BitVec 128
  cursor  : BitVec 128
  deriving DecidableEq, Repr

end Sys2Proof
end

