-- ==== Sys2Proof/Syntax.lean ====
section
/-! DEFINITION. The commands of the core: one constructor per row of the opcode table. -/

namespace Sys2Proof

/-- The six commands (30_encoding R68). A command word has no operand fields (R67): every operand sits in a fixed
register (R71). Every other word is illegal and is no command (R69). -/
inductive Instr where
  /-- BlockMixCore on a key and a plaintext (40_blockmix R107). -/
  | mix
  /-- The cursor-exhausted test (41_pathcursor R123). -/
  | cexh
  /-- The one-bit cursor shift (41_pathcursor R124). -/
  | cshr
  /-- The invariant check of a state image (41_pathcursor R126). -/
  | check
  /-- The stream-extension engine GenerateOp (42_generate R148). -/
  | gen
  /-- The stream-splitting engine SplitOp (43_split R163). -/
  | split
  deriving DecidableEq, Repr

/-- A command word taken apart into its two fields (30_encoding R67). -/
structure CmdFields where
  /-- OPC, bits 7:0. -/
  opc : BitVec 8
  /-- RSV, bits 63:8, which must be 0. -/
  rsv : BitVec 56
  deriving DecidableEq, Repr

/-- The fields of a command word (30_encoding R67). -/
def CmdFields.ofWord (w : Word) : CmdFields := ⟨w.extractLsb' 0 8, w.extractLsb' 8 56⟩

/-- The command word with given fields (30_encoding R67). -/
def CmdFields.toWord (f : CmdFields) : Word := f.rsv ++ f.opc

end Sys2Proof
end

