-- ==== Sys2Proof/WellFormed.lean ====
section
/-! DEFINITION. Which command words are legal, and which build parameters. -/

namespace Sys2Proof

/-- OPC is one of 0x01 to 0x06 (30_encoding R69; its failure is BAD_OPCODE). -/
def CmdFields.opcLegal (f : CmdFields) : Bool := decide (1 ≤ f.opc.toNat) && decide (f.opc.toNat ≤ 6)

/-- RSV is 0 (30_encoding R67, R69; its failure is RESERVED_BITS). -/
def CmdFields.rsvLegal (f : CmdFields) : Bool := f.rsv == 0#56

/-- A command word is well-formed when both checks pass; otherwise it is illegal (30_encoding R69). -/
def CmdFields.wf (f : CmdFields) : Bool := f.opcLegal && f.rsvLegal

/-- The opcode of each command (30_encoding R68). -/
def Instr.opcode : Instr → BitVec 8
  | .mix => 0x01#8
  | .cexh => 0x02#8
  | .cshr => 0x03#8
  | .check => 0x04#8
  | .gen => 0x05#8
  | .split => 0x06#8

/-- An instruction is well-formed when its opcode is legal. An `Instr` has no operand fields, so no `Instr` fails it. -/
def Instr.wf (i : Instr) : Bool := (CmdFields.mk i.opcode 0).wf

/-- A legal MAX_N: a multiple of 4 with 4 ≤ MAX_N ≤ 2^32 - 4 (00_scope R3). -/
def legalMaxN (n : Nat) : Bool := n % 4 == 0 && (decide (4 ≤ n) && decide (n ≤ 2 ^ 32 - 4))

end Sys2Proof
end

