-- ==== Sys2Proof/Decode.lean ====
section
/-! DEFINITION. The decoder of command words, total and rejecting by cause, and after it the encoder. -/

namespace Sys2Proof

/-- Why a command word is illegal (30_encoding R69, 60_exceptions R181). Both causes can hold. -/
structure IllegalCauses where
  badOpcode    : Bool
  reservedBits : Bool
  deriving DecidableEq, Repr

/-- The opcode map (30_encoding R68). -/
def decodeOpcode (opc : BitVec 8) : Option Instr :=
  if opc = 0x01#8 then some .mix
  else if opc = 0x02#8 then some .cexh
  else if opc = 0x03#8 then some .cshr
  else if opc = 0x04#8 then some .check
  else if opc = 0x05#8 then some .gen
  else if opc = 0x06#8 then some .split
  else none

/-- The decoder (30_encoding R68 to R70): one of the six commands, or the causes of ILLEGAL. -/
def decode (w : Word) : Except IllegalCauses Instr :=
  let f := CmdFields.ofWord w
  match decodeOpcode f.opc with
  | some i => if f.rsv = 0#56 then .ok i else .error ⟨false, true⟩
  | none => .error ⟨true, !f.rsvLegal⟩

/-- The DETAIL bits of ILLEGAL: bit 8 BAD_OPCODE, bit 9 RESERVED_BITS (10_state R22). -/
def IllegalCauses.detail (c : IllegalCauses) : BitVec 4 :=
  0#2 ++ BitVec.ofBool c.reservedBits ++ BitVec.ofBool c.badOpcode

/-- The command word of each command (30_encoding R68; the table's `match` column). -/
def encode : Instr → Word
  | .mix => 0x0000000000000001#64
  | .cexh => 0x0000000000000002#64
  | .cshr => 0x0000000000000003#64
  | .check => 0x0000000000000004#64
  | .gen => 0x0000000000000005#64
  | .split => 0x0000000000000006#64

/-- The word whose low `nbits` bits are those of `w` and whose other bits are 0. -/
def tableWord (nbits w : Nat) : Word := BitVec.ofNat 64 (w % 2 ^ nbits)

/-- The instruction the decoder reads from an instruction whose bits are `w`, numbered as the opcode table numbers
them. A command is one 64-bit word (30_encoding R70), and the core has no byte order (20_memory R47). -/
def decodeTableWord (nbits w : Nat) : Option Instr :=
  match decode (tableWord nbits w) with
  | .ok i => some i
  | .error _ => none

end Sys2Proof
end

