-- ==== Sys2Proof/Config.lean ====
section
/-! DEFINITION. What the build of the core fixes, and the free values the spec leaves open. -/

namespace Sys2Proof

/-- The open build parameter behind MAX_N (00_scope R3). No body: nothing can be proved of its value (log 6). -/
opaque Config.maxNChoice : Nat

/-- MAX_N, the capacity of BUF in words (00_scope R3). As `maxNChoice` ranges over the numbers this ranges over
exactly the legal values: the multiples of 4 from 4 to 2^32 - 4 (log 6). -/
@[irreducible] def Config.maxN : Nat := 4 * (1 + Config.maxNChoice % (2 ^ 30 - 1))

/-- FINAL_KEY_INJECTION of this hardware (00_scope R4, 40_blockmix R105; 90_conflicts C1; log 20). -/
def Config.finalKeyInjection : Bool := false

/-- The key-schedule parity constant C240 (10_state R24, 40_blockmix R100). -/
def Config.c240 : Word := 0x1BD11BDAA9FC1A22#64

/-- The constant register CFG (10_state R23): MAX_N in 63:32, reserved 31:17, FINAL_KEY_INJECTION in 16, R = 20 in 15:8,
W = 4 in 7:0. -/
def Config.cfg : Word :=
  (BitVec.ofNat 64 Config.maxN <<< 32) ||| ((BitVec.ofBool Config.finalKeyInjection).zeroExtend 64 <<< 16) |||
    (20#64 <<< 8) ||| 4#64

/-- FREE VALUE (20_memory R53, log 4): what the k-th host read of a result location during BUSY returns. -/
opaque Config.draw : Nat → Word

/-- FREE VALUE (10_state R29, log 3): what a BUF word that no GEN has written returns, by its index. -/
opaque Config.unwrittenBuf : Nat → Word

end Sys2Proof
end

