-- ==== Sys2Proof/Machine/State.lean ====
section
/-! DEFINITION. The state of the machine as plain data, its value after reset, and the reasons a step can stop. -/

namespace Sys2Proof.Machine

/-- Why the machine would stop. There is NO such reason: the spec gives every command word, every host access and
reset an effect, and an error is the outcome of a command, in STATUS (60_exceptions R186, R187). What the spec calls
a fault of the model is an entry of the record `State.faults` (70_reset R224). -/
inductive Fault where
  deriving DecidableEq, Repr

/-- Why an instruction would have no meaning. -/
inductive Refusal where
  /-- Raised by an arm of `exec` for an instruction not modelled yet; safe. No arm raises it: every instruction of
  the opcode table has its meaning. -/
  | notModelled (mnemonic : String)
  deriving DecidableEq, Repr

/-- The error classes of STATUS.ERR (10_state R21). Codes 4 to 15 are never produced, so they have no constructor. -/
inductive ErrClass where
  /-- 0: the command completed without error, or none has completed since the last accept or reset. -/
  | none
  /-- 1: an unknown command word (60_exceptions R181). -/
  | illegal
  /-- 2: GEN's argument errors (60_exceptions R182). -/
  | invalidArg
  /-- 3: a precondition violation (60_exceptions R183). -/
  | precondition
  deriving DecidableEq, Repr

/-- STATUS (10_state R18), its fields. The 64-bit word a host reads is `Status.word`. -/
structure Status where
  /-- Bit 0: a command is in flight (10_state R10). -/
  busy   : Bool
  /-- Bit 1: the last accepted command has completed (10_state R19). -/
  done   : Bool
  /-- Bit 2: sticky, a CMD write arrived while BUSY (10_state R20). -/
  ovr    : Bool
  /-- Bits 7:4 (10_state R21). -/
  err    : ErrClass
  /-- Bits 11:8 (10_state R22). -/
  detail : BitVec 4
  deriving DecidableEq, Repr

/-- A 64-bit register whose reset value is UNSPECIFIED (10_state R28, R29). -/
structure Reg where
  /-- What its storage holds. -/
  val  : Word
  /-- Whether it holds a value in the sense of 10_state R29: it has been written since reset (log 2). -/
  held : Bool
  deriving DecidableEq, Repr

/-- The names of the REG-space map (20_memory R41). -/
inductive RegName where
  | cmd
  | status
  | nlen
  | res
  | cfg
  | is (i : Fin 10)
  | oa (i : Fin 10)
  | ob (i : Fin 10)
  deriving DecidableEq, Repr

/-- A location a host read can find without a value (10_state R29). -/
inductive Loc where
  | reg (r : RegName)
  | buf (i : Nat)
  deriving DecidableEq, Repr

/-- An entry of the model's fault record (70_reset R224). -/
inductive FaultEvent where
  /-- A command reported PRECONDITION: its command word and its DETAIL bits (60_exceptions R188). -/
  | precondition (word : Word) (detail : BitVec 4)
  /-- A host read of a location that holds no value (10_state R29). -/
  | valuelessRead (l : Loc)
  /-- An accept that latched operand words that hold no value: the command word and those operands (10_state R29). -/
  | valuelessAccept (word : Word) (missing : List RegName)
  deriving DecidableEq, Repr

/-- The operand latches, filled at accept (10_state R26). -/
structure Latch where
  /-- The accepted command word. -/
  word : Word
  /-- The latched NLEN. -/
  nlen : Word
  /-- The latched IS0 to IS9. -/
  img  : Image
  deriving DecidableEq, Repr

/-- A host operation: the base operations of 30_encoding R72, and the two that its pseudo-operations need (log 14). -/
inductive HostOp where
  /-- `WR`: RegWrite of a 6-bit address and a 64-bit value. -/
  | regWrite (a : BitVec 6) (v : Word)
  /-- `RD`: RegRead of a 6-bit address. -/
  | regRead (a : BitVec 6)
  /-- `RDB`: BufRead of a 32-bit index. -/
  | bufRead (i : BitVec 32)
  /-- `WR` of the value the host's last read returned, as in MOVA and MOVB. -/
  | regWriteLast (a : BitVec 6)
  /-- `WAIT`: read STATUS, and again while bit 0 of the value is 1. -/
  | wait
  deriving DecidableEq, Repr

/-- Who takes a step (20_memory R56), or reset is asserted (70_reset R210). -/
inductive Turn where
  | host
  | core
  | reset
  deriving DecidableEq, Repr

/-- The working triple (key, path, counter base) of GenerateOp and its new cursor (10_state R25, 42_generate R142). It
lives only inside GEN's completion step (log 10). -/
structure Triple where
  key   : Block
  path0 : Word
  path1 : Word
  cb0   : Word
  cb1   : Word
  cur0  : Word
  cur1  : Word
  deriving DecidableEq, Repr

/-- What a command ends with when it fails: its error class with the DETAIL bits (00_scope section 4, `raise`). -/
inductive CmdError where
  | illegalCommand (detail : BitVec 4)
  | invalidArgument (detail : BitVec 4)
  | preconditionViolation (detail : BitVec 4)
  deriving DecidableEq, Repr

/-- The words of BUF that hold a value, each with its index, indices strictly rising (20_memory R45). A word not listed
holds no value (10_state R29; log 3, log 15). -/
abbrev Memory := List (Nat × Word)

/-- The machine: the core's registers, BUF and latches, the model's fault record, and the host as the list of its
pending operations with the schedule of the steps. -/
structure State where
  /-- CMD, the last accepted command word (10_state R17). -/
  cmd    : Word
  /-- STATUS (10_state R18). -/
  status : Status
  /-- NLEN (10_state R12). -/
  nlen   : Reg
  /-- RES (10_state R15). -/
  res    : Reg
  /-- IS0 to IS9 (10_state R11). -/
  is     : Bank Reg
  /-- OA0 to OA9 (10_state R13). -/
  oa     : Bank Reg
  /-- OB0 to OB9 (10_state R14). -/
  ob     : Bank Reg
  /-- BUF (10_state R16). -/
  buf    : Memory
  /-- The operand latches (10_state R26). -/
  latch  : Latch
  /-- The fault record, newest first (70_reset R224). -/
  faults : List FaultEvent
  /-- MODEL: the host's pending operations, in issue order (20_memory R51; log 14). -/
  prog   : List HostOp
  /-- MODEL: who takes the next steps (20_memory R51, R52; log 5). -/
  sched  : List Turn
  /-- MODEL: the word the host's last read returned (log 14). -/
  rdata  : Word
  /-- MODEL: the number of free draws taken (20_memory R53; log 4). -/
  draws  : Nat
  deriving DecidableEq, Repr

/-- DESIGN CHOICE (log 1, unsafe): the storage of a register without a reset value starts at 0, and holds no value in
the sense of 10_state R29. -/
def Reg.reset : Reg := ⟨0#64, false⟩

/-- Ten registers as they are after reset (log 1). -/
def Bank.resetRegs : Bank Reg :=
  ⟨Reg.reset, Reg.reset, Reg.reset, Reg.reset, Reg.reset, Reg.reset, Reg.reset, Reg.reset, Reg.reset, Reg.reset⟩

/-- The machine right after reset (10_state R28): IDLE, CMD = 0, STATUS = 0, no other location holds a value, nothing
recorded, and no host operation pending. -/
def State.reset : State where
  cmd := 0
  status := ⟨false, false, false, .none, 0⟩
  nlen := Reg.reset
  res := Reg.reset
  is := Bank.resetRegs
  oa := Bank.resetRegs
  ob := Bank.resetRegs
  buf := []
  latch := ⟨0, 0, ⟨0, 0, 0, 0, 0, 0, 0, 0, 0, 0⟩⟩
  faults := []
  prog := []
  sched := []
  rdata := 0
  draws := 0

end Sys2Proof.Machine
end

