-- ==== Sys2Proof/Machine/Flags.lean ====
section
/-! DEFINITION. The flag computations: the STATUS word, and the cause bits of each error class. -/

namespace Sys2Proof.Machine

/-- The code of an error class in STATUS.ERR (10_state R21). -/
def ErrClass.code : ErrClass → BitVec 4
  | .none => 0#4
  | .illegal => 1#4
  | .invalidArg => 2#4
  | .precondition => 3#4

/-- The STATUS word a host reads (10_state R18): reserved 63:12, DETAIL, ERR, reserved 3, OVR, DONE, BUSY. -/
def Status.word (s : Status) : Word :=
  0#52 ++ s.detail ++ s.err.code ++ 0#1 ++ BitVec.ofBool s.ovr ++ BitVec.ofBool s.done ++ BitVec.ofBool s.busy

/-- The error class of a command's error (00_scope section 4, 60_exceptions R180). -/
def CmdError.errClass : CmdError → ErrClass
  | .illegalCommand _ => .illegal
  | .invalidArgument _ => .invalidArg
  | .preconditionViolation _ => .precondition

/-- The DETAIL bits of a command's error (10_state R22). -/
def CmdError.detail : CmdError → BitVec 4
  | .illegalCommand d => d
  | .invalidArgument d => d
  | .preconditionViolation d => d

/-- Four flags as DETAIL bits 8 to 11, the first the lowest (10_state R22, 30_encoding R65). -/
def bits4 (b0 b1 b2 b3 : Bool) : BitVec 4 :=
  BitVec.ofBool b3 ++ BitVec.ofBool b2 ++ BitVec.ofBool b1 ++ BitVec.ofBool b0

/-- The number of 1 bits among the low `k` bits. -/
def popcountBelow {w : Nat} (v : BitVec w) : Nat → Nat
  | 0 => 0
  | k + 1 => popcountBelow v k + (v.getLsbD k).toNat

/-- The 128-bit value `hi:lo` = hi * 2^64 + lo (00_scope section 4, 30_encoding R61). -/
def cat128 (hi lo : Word) : BitVec 128 := hi ++ lo

/-- popcount, the number of 1 bits (00_scope section 4). -/
def popcount {w : Nat} (v : BitVec w) : Nat := popcountBelow v w

/-- CURSOR_POP (30_encoding R65): the cursor has more than one bit set. -/
def violCursorPop (s : Image) : Bool := decide (1 < popcount (cat128 s.w8 s.w9))

/-- PATH_TAIL (30_encoding R65): the cursor is one-hot at bit b and one of path bits b down to 0 is set. -/
def violPathTail (s : Image) : Bool :=
  popcount (cat128 s.w8 s.w9) == 1 && (cat128 s.w4 s.w5).toNat % (2 * (cat128 s.w8 s.w9).toNat) != 0

/-- CTR_SENTINEL (30_encoding R65): the counter word is M. -/
def violSentinel (s : Image) : Bool := s.w7 == allOnes

/-- CTR_HI (30_encoding R65): the counter's high word is not 0. -/
def violCtrHi (s : Image) : Bool := s.w6 != 0#64

/-- VIOL, the 4-bit violation mask of a state image (30_encoding R65, 41_pathcursor R125). -/
def viol (s : Image) : BitVec 4 := bits4 (violCursorPop s) (violPathTail s) (violSentinel s) (violCtrHi s)

/-- GEN's INVALID_ARG cause bits N_ZERO, N_NOT_MULT4, N_TOO_LARGE (42_generate R140), for a capacity `maxN`. -/
def argCauses (maxN : Nat) (n : Word) : BitVec 4 :=
  bits4 (n == 0#64) (n.toNat % 4 != 0) (decide (maxN < n.toNat)) false

end Sys2Proof.Machine
end

