-- ==== Sys2Proof/Machine/Operands.lean ====
section
/-! DEFINITION. The operand forms: banks by index, the REG-space map, the latched operands, the state codec. -/

namespace Sys2Proof

/-- Item `i` of a bank. -/
def Bank.get {α : Type} (b : Bank α) (i : Fin 10) : α :=
  match i with
  | 0 => b.w0
  | 1 => b.w1
  | 2 => b.w2
  | 3 => b.w3
  | 4 => b.w4
  | 5 => b.w5
  | 6 => b.w6
  | 7 => b.w7
  | 8 => b.w8
  | 9 => b.w9

/-- The bank with item `i` replaced. -/
def Bank.set {α : Type} (b : Bank α) (i : Fin 10) (v : α) : Bank α :=
  match i with
  | 0 => { b with w0 := v }
  | 1 => { b with w1 := v }
  | 2 => { b with w2 := v }
  | 3 => { b with w3 := v }
  | 4 => { b with w4 := v }
  | 5 => { b with w5 := v }
  | 6 => { b with w6 := v }
  | 7 => { b with w7 := v }
  | 8 => { b with w8 := v }
  | 9 => { b with w9 := v }

/-- The bank with every item changed by `f`. -/
def Bank.map {α β : Type} (f : α → β) (b : Bank α) : Bank β :=
  ⟨f b.w0, f b.w1, f b.w2, f b.w3, f b.w4, f b.w5, f b.w6, f b.w7, f b.w8, f b.w9⟩

/-- Words 0 to 3 of an image: key[0..4] (30_encoding R60). -/
def Bank.key (s : Image) : Block := ⟨s.w0, s.w1, s.w2, s.w3⟩

/-- Words 4 to 7 of an image: MIX's plaintext (40_blockmix R107), SPLIT's path and counter (43_split R161). -/
def Bank.pathCounter (s : Image) : Block := ⟨s.w4, s.w5, s.w6, s.w7⟩

/-- The cursor of an image is all-zero: exhausted (30_encoding R63). -/
def Bank.exhausted (s : Image) : Bool := s.w8 == 0#64 && s.w9 == 0#64

/-- The state codec's decode (30_encoding R61, R66): each 128-bit field high word first. -/
def stateDecode (w : Image) : GenState where
  key := w.key
  path := Machine.cat128 w.w4 w.w5
  counter := Machine.cat128 w.w6 w.w7
  cursor := Machine.cat128 w.w8 w.w9

/-- The state codec's encode (30_encoding R66): `div 2^64` and `mod 2^64` of each 128-bit field. -/
def stateEncode (f : GenState) : Image where
  w0 := f.key.x0
  w1 := f.key.x1
  w2 := f.key.x2
  w3 := f.key.x3
  w4 := BitVec.ofNat 64 (f.path.toNat / 2 ^ 64)
  w5 := BitVec.ofNat 64 (f.path.toNat % 2 ^ 64)
  w6 := BitVec.ofNat 64 (f.counter.toNat / 2 ^ 64)
  w7 := BitVec.ofNat 64 (f.counter.toNat % 2 ^ 64)
  w8 := BitVec.ofNat 64 (f.cursor.toNat / 2 ^ 64)
  w9 := BitVec.ofNat 64 (f.cursor.toNat % 2 ^ 64)

namespace Machine

/-- The REG address of a named register (20_memory R41, 30_encoding R73). -/
def RegName.addr : RegName → BitVec 6
  | .cmd => 0x00#6
  | .status => 0x01#6
  | .nlen => 0x02#6
  | .res => 0x03#6
  | .cfg => 0x04#6
  | .is i => BitVec.ofNat 6 (0x10 + i.val)
  | .oa i => BitVec.ofNat 6 (0x20 + i.val)
  | .ob i => BitVec.ofNat 6 (0x30 + i.val)

/-- The register at a REG address; `none` for a reserved address (20_memory R41, R42). Total on the 64 addresses (R44). -/
def RegName.ofAddr (a : BitVec 6) : Option RegName :=
  if a = 0x00#6 then some .cmd
  else if a = 0x01#6 then some .status
  else if a = 0x02#6 then some .nlen
  else if a = 0x03#6 then some .res
  else if a = 0x04#6 then some .cfg
  else if 0x10 ≤ a.toNat ∧ a.toNat ≤ 0x19 then some (.is (Fin.ofNat 10 (a.toNat - 0x10)))
  else if 0x20 ≤ a.toNat ∧ a.toNat ≤ 0x29 then some (.oa (Fin.ofNat 10 (a.toNat - 0x20)))
  else if 0x30 ≤ a.toNat ∧ a.toNat ≤ 0x39 then some (.ob (Fin.ofNat 10 (a.toNat - 0x30)))
  else none

/-- IS0 to IS9, as operand words. -/
def imageOperands : List RegName :=
  [.is 0, .is 1, .is 2, .is 3, .is 4, .is 5, .is 6, .is 7, .is 8, .is 9]

/-- The operand words each command reads (10_state R29, 30_encoding R71). -/
def operandsOf : Instr → List RegName
  | .mix => [.is 0, .is 1, .is 2, .is 3, .is 4, .is 5, .is 6, .is 7]
  | .cexh => [.is 8, .is 9]
  | .cshr => [.is 8, .is 9]
  | .check => imageOperands
  | .gen => imageOperands ++ [.nlen]
  | .split => imageOperands

/-- The operand words a command word reads: none when it is illegal (10_state R29, 60_exceptions R181). -/
def operandsOfWord (w : Word) : List RegName :=
  match decode w with
  | .ok i => operandsOf i
  | .error _ => []

end Machine

end Sys2Proof
end

