-- ==== Sys2Proof/Machine/Ops.lean ====
section
/-! DEFINITION. The named operations: BUF, result registers, completion, errors, accept, host accesses, reset. -/

namespace Sys2Proof.Machine

/-! ### BUF as a memory of 64-bit words (20_memory R45, R46; log 3, log 15) -/

/-- The canonical form: the indices are strictly rising. An unlisted word holds no value, so no entry is redundant. -/
def Memory.wf : Memory → Bool
  | [] => true
  | c :: m => m.all (fun d => decide (c.1 < d.1)) && Memory.wf m

/-- Every listed index is below `n`. -/
def Memory.below (n : Nat) (m : Memory) : Bool := m.all (fun c => decide (c.1 < n))

/-- The word at an index, `none` when it holds no value. -/
def Memory.read (m : Memory) (i : Nat) : Option Word :=
  match m with
  | [] => none
  | (j, u) :: m' => if j = i then some u else Memory.read m' i

/-- Write one word, keeping the canonical form. -/
def Memory.write (m : Memory) (i : Nat) (v : Word) : Memory :=
  match m with
  | [] => [(i, v)]
  | (j, u) :: m' =>
    if i < j then (i, v) :: (j, u) :: m'
    else if i = j then (i, v) :: m'
    else (j, u) :: Memory.write m' i v

/-- Write a list of words at consecutive indices from `i` (42_generate R147: BufWrite for k in 0 .. n). -/
def Memory.writeList (m : Memory) (i : Nat) (vs : List Word) : Memory :=
  match vs with
  | [] => m
  | v :: vs' => Memory.writeList (Memory.write m i v) (i + 1) vs'

/-! ### Result registers (10_state R13 to R16) -/

/-- A register after a write: it holds the value (10_state R29). -/
def Reg.put (v : Word) : Reg := ⟨v, true⟩

/-- Write OA0 to OA3, as MIX does. -/
def State.writeOaBlock (b : Block) (s : State) : State :=
  { s with oa := { s.oa with w0 := Reg.put b.x0, w1 := Reg.put b.x1, w2 := Reg.put b.x2, w3 := Reg.put b.x3 } }

/-- Write OA8 and OA9, as CSHR does. -/
def State.writeOaCursor (c : Word × Word) (s : State) : State :=
  { s with oa := { s.oa with w8 := Reg.put c.1, w9 := Reg.put c.2 } }

/-- Write OA0 to OA9 with a state image. -/
def State.writeOa (img : Image) (s : State) : State := { s with oa := img.map Reg.put }

/-- Write OB0 to OB9 with a state image. -/
def State.writeOb (img : Image) (s : State) : State := { s with ob := img.map Reg.put }

/-- Write RES. -/
def State.writeRes (v : Word) (s : State) : State := { s with res := Reg.put v }

/-- Write BUF words 0, 1, … with a list of words. -/
def State.writeBuf (vs : List Word) (s : State) : State := { s with buf := Memory.writeList s.buf 0 vs }

/-! ### How a command ends (20_memory R52) -/

/-- Success: ERR = NONE, DETAIL = 0, BUSY 0, DONE 1. OVR is untouched (10_state R20). -/
def State.complete (s : State) : State :=
  { s with status := { s.status with busy := false, done := true, err := .none, detail := 0#4 } }

/-- The fault record after an error: only a PRECONDITION report is recorded (60_exceptions R188, 70_reset R224). -/
def CmdError.record (e : CmdError) (word : Word) (fs : List FaultEvent) : List FaultEvent :=
  match e with
  | .illegalCommand _ => fs
  | .invalidArgument _ => fs
  | .preconditionViolation d => .precondition word d :: fs

/-- TAKING AN ERROR, the one shared operation (60_exceptions R186): ERR and DETAIL are written, BUSY 0, DONE 1, nothing
else of the machine changes, nothing is saved and nothing is vectored. The way back is the next accept (R187). -/
def State.raise (e : CmdError) (s : State) : State :=
  { s with
    status := { s.status with busy := false, done := true, err := e.errClass, detail := e.detail }
    faults := e.record s.latch.word s.faults }

/-! ### Accept (20_memory R50) -/

/-- Whether a register holds a value (10_state R29). CMD and STATUS have reset values, and CFG is constant. -/
def State.holds (s : State) : RegName → Bool
  | .cmd => true
  | .status => true
  | .cfg => true
  | .nlen => s.nlen.held
  | .res => s.res.held
  | .is i => (s.is.get i).held
  | .oa i => (s.oa.get i).held
  | .ob i => (s.ob.get i).held

/-- The operand words of a command word that hold no value. -/
def State.missingOperands (s : State) (w : Word) : List RegName := (operandsOfWord w).filter (fun r => !s.holds r)

/-- The fault record after an accept: an accept that latches a value-less operand is recorded (10_state R29). -/
def State.acceptRecord (s : State) (w : Word) : List FaultEvent :=
  match s.missingOperands w with
  | [] => s.faults
  | r :: rs => .valuelessAccept w (r :: rs) :: s.faults

/-- ACCEPT of a command word (20_memory R50): CMD and the latches are filled, BUSY 1, DONE 0, ERR and DETAIL cleared, OVR
and every result unchanged. It is also the return from an error: it clears what `State.raise` left (60_exceptions R187). -/
def State.accept (w : Word) (s : State) : State :=
  { s with
    cmd := w
    latch := ⟨w, s.nlen.val, s.is.map Reg.val⟩
    status := { s.status with busy := true, done := false, err := .none, detail := 0#4 }
    faults := s.acceptRecord w }

/-- What the core's decoder makes of the command in flight (30_encoding R70). -/
def State.fetched (s : State) : Except IllegalCauses Instr := decode s.latch.word

/-! ### Host accesses (20_memory R41 to R53) -/

/-- A host write to a REG address (20_memory R42, R43, R49; 10_state R18, R20). -/
def State.regWrite (a : BitVec 6) (v : Word) (s : State) : State :=
  match RegName.ofAddr a with
  | some .cmd => if s.status.busy then { s with status := { s.status with ovr := true } } else s.accept v
  | some .status => if v.getLsbD 2 then { s with status := { s.status with ovr := false } } else s
  | some .nlen => { s with nlen := Reg.put v }
  | some (.is i) => { s with is := s.is.set i (Reg.put v) }
  | some .res => s
  | some .cfg => s
  | some (.oa _) => s
  | some (.ob _) => s
  | none => s

/-- Give the host the word it read; a read of a location that holds no value is recorded (10_state R29). -/
def State.deliver (l : Loc) (held : Bool) (v : Word) (s : State) : State :=
  { s with rdata := v, faults := if held then s.faults else .valuelessRead l :: s.faults }

/-- A host read of a result location: its value, or while BUSY a free draw (20_memory R53; log 4, log 8). -/
def State.deliverResult (l : Loc) (held : Bool) (v : Word) (s : State) : State :=
  if s.status.busy then { s.deliver l held (Config.draw s.draws) with draws := s.draws + 1 } else s.deliver l held v

/-- A host read of a REG address (20_memory R41, R42, R53). -/
def State.regRead (a : BitVec 6) (s : State) : State :=
  match RegName.ofAddr a with
  | some .cmd => s.deliver (.reg .cmd) true s.cmd
  | some .status => s.deliver (.reg .status) true s.status.word
  | some .cfg => s.deliver (.reg .cfg) true Config.cfg
  | some .nlen => s.deliver (.reg .nlen) s.nlen.held s.nlen.val
  | some (.is i) => s.deliver (.reg (.is i)) (s.is.get i).held (s.is.get i).val
  | some .res => s.deliverResult (.reg .res) s.res.held s.res.val
  | some (.oa i) => s.deliverResult (.reg (.oa i)) (s.oa.get i).held (s.oa.get i).val
  | some (.ob i) => s.deliverResult (.reg (.ob i)) (s.ob.get i).held (s.ob.get i).val
  | none => { s with rdata := 0#64 }

/-- The word that storage returns for a BUF index: the word written, or a free value when none was (log 3). -/
def State.bufValue (s : State) (i : Nat) : Word := (Memory.read s.buf i).getD (Config.unwrittenBuf i)

/-- A host read of a BUF index (20_memory R45, R53): at or above MAX_N it returns 0, BUSY or not (log 7). -/
def State.bufRead (i : BitVec 32) (s : State) : State :=
  if i.toNat < Config.maxN then
    s.deliverResult (.buf i.toNat) (Memory.read s.buf i.toNat).isSome (s.bufValue i.toNat)
  else { s with rdata := 0#64 }

/-- One access of the host: the next pending operation, or nothing when none is pending (70_reset R211). `wait` is one
read of STATUS and stays pending while bit 0 of the value is 1 (30_encoding R72). -/
def State.hostStep (s : State) : State :=
  match s.prog with
  | [] => s
  | .regWrite a v :: p => State.regWrite a v { s with prog := p }
  | .regRead a :: p => State.regRead a { s with prog := p }
  | .bufRead i :: p => State.bufRead i { s with prog := p }
  | .regWriteLast a :: p => State.regWrite a s.rdata { s with prog := p }
  | .wait :: p =>
    if (s.regRead RegName.status.addr).rdata.getLsbD 0 then s.regRead RegName.status.addr
    else { s.regRead RegName.status.addr with prog := p }

/-! ### Reset and the schedule -/

/-- RESET at any time (70_reset R210): the command in flight is abandoned and the machine is as after reset. The fault
record stays (R224), and so do the model's own fields: the host and what it has read (log 9). -/
def State.resetEvent (s : State) : State :=
  { State.reset with faults := s.faults, prog := s.prog, sched := s.sched, rdata := s.rdata, draws := s.draws }

/-- Who takes the next step (log 5): the head of the schedule; with none left, the core while a command is in flight
and the host otherwise, so that every accepted command completes (70_reset R219). -/
def State.nextTurn (s : State) : Turn :=
  match s.sched with
  | [] => if s.status.busy then .core else .host
  | t :: _ => t

/-- The state with this step's turn taken off the schedule. -/
def State.popTurn (s : State) : State := { s with sched := s.sched.tail }

end Sys2Proof.Machine
end

