-- ==== Sys2Proof/Machine/BlockMix.lean ====
section
/-! DEFINITION. BlockMixCore, the keyed-hash round function, and the MIX command (40_blockmix). -/

namespace Sys2Proof.Machine

/-- Rotate left by r, 1 ≤ r ≤ 63 (00_scope section 4). -/
def rotl64 (a : Word) (r : Nat) : Word := (a <<< r) ||| (a >>> (64 - r))

/-- The parity word ek[4] (40_blockmix R100). -/
def parityWord (k : Block) : Word := k.x0 ^^^ k.x1 ^^^ k.x2 ^^^ k.x3 ^^^ Config.c240

/-- ek[j mod 5], the extended key (40_blockmix R100). -/
def extendedKey (k : Block) (j : Nat) : Word :=
  match j % 5 with
  | 0 => k.x0
  | 1 => k.x1
  | 2 => k.x2
  | 3 => k.x3
  | _ => parityWord k

/-- INJECT(x, s), key injection at stage s (40_blockmix R101). -/
def inject (k x : Block) (s : Nat) : Block where
  x0 := x.x0 + extendedKey k s
  x1 := x.x1 + extendedKey k (s + 1)
  x2 := x.x2 + extendedKey k (s + 2)
  x3 := x.x3 + extendedKey k (s + 3) + BitVec.ofNat 64 s

/-- ROT4[g mod 8], its amounts for pairs q = 0 and q = 1 (40_blockmix R102; PRESUMED, from the spec's general
knowledge, log 12). -/
def rot4 (g : Nat) : Nat × Nat :=
  match g % 8 with
  | 0 => (14, 16)
  | 1 => (52, 57)
  | 2 => (23, 40)
  | 3 => (5, 37)
  | 4 => (25, 33)
  | 5 => (46, 12)
  | 6 => (58, 22)
  | _ => (32, 32)

/-- PERMUTE by PERM4 = [0, 3, 2, 1] (40_blockmix R104). -/
def permute (x : Block) : Block := ⟨x.x0, x.x3, x.x2, x.x1⟩

/-- MIXROUND(x, g), the permutation included (40_blockmix R103, R104). -/
def mixRound (x : Block) (g : Nat) : Block :=
  permute
    { x0 := x.x0 + x.x1
      x1 := (x.x0 + x.x1) ^^^ rotl64 x.x1 (rot4 g).1
      x2 := x.x2 + x.x3
      x3 := (x.x2 + x.x3) ^^^ rotl64 x.x3 (rot4 g).2 }

/-- Stage s: one injection, then four rounds (40_blockmix R106). -/
def mixStage (k x : Block) (s : Nat) : Block :=
  mixRound (mixRound (mixRound (mixRound (inject k x s) (4 * s)) (4 * s + 1)) (4 * s + 2)) (4 * s + 3)

/-- MIX for either value of the parameter FINAL_KEY_INJECTION (40_blockmix R105, R106). -/
def mixWith (final : Bool) (k p : Block) : Block :=
  let x := mixStage k (mixStage k (mixStage k (mixStage k (mixStage k p 0) 1) 2) 3) 4
  if final then inject k x 5 else x

/-- MIX(k, p) of this hardware (40_blockmix R106, R108): the one function MIX, GEN and SPLIT use. -/
def mix (k p : Block) : Block := mixWith Config.finalKeyInjection k p

/-- MIX (40_blockmix R107): OA0 to OA3 take the block of the latched key and plaintext. It cannot fail. -/
def execMix (s : State) : Host.Outcome State Fault Refusal :=
  .next (s.writeOaBlock (mix s.latch.img.key s.latch.img.pathCounter)).complete

end Sys2Proof.Machine
end

