-- ==== Sys2Proof/Machine/PathCursor.lean ====
section
/-! DEFINITION. PathCursor and the invariant check: CEXH, CSHR and CHECK (41_pathcursor). -/

namespace Sys2Proof.Machine

/-- EXH(hi, lo) (41_pathcursor R120). -/
def exh (hi lo : Word) : Bool := hi == 0#64 && lo == 0#64

/-- SHR1(hi, lo) (41_pathcursor R121), its cases in the source's order. -/
def shr1 (hi lo : Word) : Word × Word :=
  if hi = 1#64 then (0#64, topBit)
  else if hi = 0#64 then (0#64, lo >>> 1)
  else (hi >>> 1, 0#64)

/-- CSHR's rule: PRECONDITION with CURSOR_POP when popcount > 1, else the shifted cursor (41_pathcursor R122, R124). -/
def cshrRule (hi lo : Word) : Except CmdError (Word × Word) :=
  if 1 < popcount (cat128 hi lo) then .error (.preconditionViolation (bits4 true false false false))
  else .ok (shr1 hi lo)

/-- CEXH (41_pathcursor R123): RES takes 1 when the latched cursor is exhausted and 0 otherwise. It cannot fail. -/
def execCexh (s : State) : Host.Outcome State Fault Refusal :=
  .next (s.writeRes (if exh s.latch.img.w8 s.latch.img.w9 then 1#64 else 0#64)).complete

/-- CSHR (41_pathcursor R124): OA8 and OA9 take the shifted cursor, or nothing is written on the error. -/
def execCshr (s : State) : Host.Outcome State Fault Refusal :=
  .next
    (match cshrRule s.latch.img.w8 s.latch.img.w9 with
    | .error e => s.raise e
    | .ok c => (s.writeOaCursor c).complete)

/-- CHECK (41_pathcursor R126): RES takes the violation mask, zero-extended. It raises no error. -/
def execCheck (s : State) : Host.Outcome State Fault Refusal :=
  .next (s.writeRes ((viol s.latch.img).zeroExtend 64)).complete

end Sys2Proof.Machine
end

