-- ==== Sys2Proof/Machine/Generate.lean ====
section
/-! DEFINITION. GenerateOp, the stream-extension engine, and the GEN command (42_generate). -/

namespace Sys2Proof.Machine

/-- The HEADROOM branch (42_generate R143): the working triple is the state's own. -/
def genHeadroom (s : Image) : Triple := ⟨s.key, s.w4, s.w5, s.w6, s.w7, s.w8, s.w9⟩

/-- The REHASH branch (42_generate R144): a fresh key from the all-ones sentinel plaintext, the root's other fields. -/
def genRehash (s : Image) : Triple := ⟨mix s.key ⟨allOnes, allOnes, 0#64, 0#64⟩, 0#64, 0#64, 0#64, 0#64, topBit, 0#64⟩

/-- The PATH branch (42_generate R145): append a 1 at the cursor, restart the counter. -/
def genPath (s : Image) : Triple :=
  ⟨s.key, s.w4 ||| s.w8, s.w5 ||| s.w9, 0#64, 0#64, (shr1 s.w8 s.w9).1, (shr1 s.w8 s.w9).2⟩

/-- Headroom: `s[7] < M - n`, a strict comparison of numbers, since `M - n` does not wrap (42_generate R142). -/
def hasHeadroom (s : Image) (n : Word) : Bool := decide (s.w7.toNat < 2 ^ 64 - 1 - n.toNat)

/-- Branch selection, STEP1(s, n), its tests in the rule's order (42_generate R142). -/
def workingTriple (s : Image) (n : Word) : Triple :=
  if hasHeadroom s n then genHeadroom s
  else if s.exhausted then genRehash s
  else genPath s

/-- The plaintext of block i: each word incremented by i on its own, with no carry between them (42_generate R146). -/
def blockPlaintext (t : Triple) (i : Nat) : Block :=
  ⟨t.path0 + BitVec.ofNat 64 i, t.path1 + BitVec.ofNat 64 i, t.cb0 + BitVec.ofNat 64 i, t.cb1 + BitVec.ofNat 64 i⟩

/-- Block i (42_generate R146, R150). -/
def genBlock (t : Triple) (i : Nat) : Block := mix t.key (blockPlaintext t i)

/-- The words of `count` blocks from block `i` on, in block order (42_generate R146). -/
def genValuesFrom (t : Triple) (i : Nat) : Nat → List Word
  | 0 => []
  | count + 1 =>
    let b := genBlock t i
    b.x0 :: b.x1 :: b.x2 :: b.x3 :: genValuesFrom t (i + 1) count

/-- The values array: n words, the blocks 0 .. n/4 (42_generate R146). -/
def genValues (t : Triple) (n : Word) : List Word := genValuesFrom t 0 (n.toNat / 4)

/-- The successor state image (42_generate R147): the counter advances by n, its high word stays 0. -/
def genNext (t : Triple) (n : Word) : Image :=
  ⟨t.key.x0, t.key.x1, t.key.x2, t.key.x3, t.path0, t.path1, 0#64, t.cb1 + n, t.cur0, t.cur1⟩

/-- GEN's rule for a capacity `maxN` (42_generate R148): arguments first, then the state, then the working triple. -/
def genRule (maxN : Nat) (s : Image) (n : Word) : Except CmdError Triple :=
  if argCauses maxN n ≠ 0#4 then .error (.invalidArgument (argCauses maxN n))
  else if viol s ≠ 0#4 then .error (.preconditionViolation (viol s))
  else .ok (workingTriple s n)

/-- GEN (42_generate R148): BUF words 0 to n - 1 take the values and OA the successor, or nothing is written on an
error. -/
def execGen (s : State) : Host.Outcome State Fault Refusal :=
  .next
    (match genRule Config.maxN s.latch.img s.latch.nlen with
    | .error e => s.raise e
    | .ok t => ((s.writeBuf (genValues t s.latch.nlen)).writeOa (genNext t s.latch.nlen)).complete)

end Sys2Proof.Machine
end

