-- ==== Sys2Proof/Machine/Split.lean ====
section
/-! DEFINITION. SplitOp, the stream-splitting engine, and the SPLIT command (43_split). -/

namespace Sys2Proof.Machine

/-- The key both children get in the REHASH branch: the current path and counter under the state's key (43_split R161). -/
def splitKey (s : Image) : Block := mix s.key s.pathCounter

/-- A child of the REHASH branch with top path word `p0` (43_split R161). -/
def rehashChild (s : Image) (p0 : Word) : Image :=
  ⟨(splitKey s).x0, (splitKey s).x1, (splitKey s).x2, (splitKey s).x3, p0, 0#64, 0#64, 0#64, 0x4000000000000000#64, 0#64⟩

/-- A child of the EXTEND branch with path words `p0`, `p1`: the key and the counter are carried (43_split R162). -/
def extendChild (s : Image) (p0 p1 : Word) : Image :=
  ⟨s.w0, s.w1, s.w2, s.w3, p0, p1, s.w6, s.w7, (shr1 s.w8 s.w9).1, (shr1 s.w8 s.w9).2⟩

/-- The left child (43_split R161, R162). -/
def splitLeft (s : Image) : Image :=
  if s.exhausted then rehashChild s 0#64 else extendChild s s.w4 s.w5

/-- The right child (43_split R161, R162). -/
def splitRight (s : Image) : Image :=
  if s.exhausted then rehashChild s topBit else extendChild s (s.w4 ||| s.w8) (s.w5 ||| s.w9)

/-- SPLIT's rule (43_split R160, R163): the pair of children (left, right), or PRECONDITION. -/
def splitRule (s : Image) : Except CmdError (Image × Image) :=
  if viol s ≠ 0#4 then .error (.preconditionViolation (viol s)) else .ok (splitLeft s, splitRight s)

/-- SPLIT (43_split R163): OA takes the left child and OB the right, or nothing is written on the error. -/
def execSplit (s : State) : Host.Outcome State Fault Refusal :=
  .next
    (match splitRule s.latch.img with
    | .error e => s.raise e
    | .ok c => ((s.writeOa c.1).writeOb c.2).complete)

end Sys2Proof.Machine
end

