-- ==== Sys2Proof/Machine/Dispatch.lean ====
section
/-! DEFINITION. The meaning of each command: its completion step on the latched operands (20_memory R52). -/

namespace Sys2Proof.Machine

def exec (i : Instr) (s : State) : Host.Outcome State Fault Refusal :=
  match i with
  | .mix => Sys2Proof.Machine.execMix s
  | .cexh => Sys2Proof.Machine.execCexh s
  | .cshr => Sys2Proof.Machine.execCshr s
  | .check => Sys2Proof.Machine.execCheck s
  | .gen => Sys2Proof.Machine.execGen s
  | .split => Sys2Proof.Machine.execSplit s

end Sys2Proof.Machine
end

