-- ==== Sys2Proof/Machine/Step.lean ====
section
/-! DEFINITION. One step of the machine: a host access, the core's completion step, or reset. -/

namespace Sys2Proof.Machine

/-- The core's step (20_memory R52, R56): while BUSY, the completion of the command in flight, an illegal word included
(60_exceptions R181); while IDLE, nothing. -/
def coreStep (s : State) : Host.Outcome State Fault Refusal :=
  if s.status.busy then
    match s.fetched with
    | .ok i => exec i s
    | .error c => .next (s.raise (.illegalCommand c.detail))
  else .next s

/-- One step (20_memory R51, R52): the agent whose turn it is takes it. -/
def step (s : State) : Host.Outcome State Fault Refusal :=
  match s.nextTurn with
  | .host => .next s.popTurn.hostStep
  | .core => coreStep s.popTurn
  | .reset => .next s.popTurn.resetEvent

/-- The state in which the very next step runs the command whose bits are `w` (log 13): the core has no program counter
(10_state R10), a command is run by accepting its word (20_memory R50), and the next turn is the core's. -/
def State.withFetchWord (s : State) (nbits w : Nat) : State :=
  { s.accept (tableWord nbits w) with sched := .core :: s.sched }

end Sys2Proof.Machine
end

