-- ==== Sys2Proof/Safety.lean ====
section
/-! DEFINITION. What counts as a safe run, and the invariants that claims use. -/

namespace Sys2Proof.Machine

/-- No fault has been recorded: what a claim about a run has to ask for (70_reset R224, 92_eei_decisions D9). -/
def State.faultFree (s : State) : Bool := s.faults.isEmpty

/-- BUF is in its canonical form and lists only words that exist (20_memory R45). -/
def State.bufWf (s : State) : Bool := Memory.wf s.buf && Memory.below Config.maxN s.buf

/-- The DETAIL bits each error class can carry (10_state R22). -/
def ErrClass.detailLegal : ErrClass → BitVec 4 → Bool
  | .none, d => d == 0#4
  | .illegal, d => d == 1#4 || d == 2#4 || d == 3#4
  | .invalidArg, d => d != 0#4 && !d.getLsbD 3
  | .precondition, d => d != 0#4

/-- STATUS is one the protocol can produce (10_state R19, R21, R22): while BUSY, DONE, ERR and DETAIL are clear, and
DETAIL always fits ERR. -/
def Status.legal (s : Status) : Bool :=
  (!s.busy || (!s.done && s.err == .none)) && s.err.detailLegal s.detail

/-- While a command is in flight CMD reads the command that is running (10_state R17, R20). -/
def State.cmdRunning (s : State) : Bool := !s.status.busy || s.cmd == s.latch.word

/-- The invariant of the whole machine: BUF, STATUS and CMD are as the rules leave them. -/
def State.inv (s : State) : Bool := s.bufWf && s.status.legal && s.cmdRunning

/-- A state image meets all four invariants (30_encoding R65, 41_pathcursor R125). -/
def Image.wellFormed (s : Image) : Bool := viol s == 0#4

end Sys2Proof.Machine
end

