-- ==== Sys2Proof/Certificates/Slice0/Obligations.lean ====
section
/-! DEFINITION. The statements about the model, for the provers. -/

open Sys2Proof Sys2Proof.Machine

/-! ### Words the statements share -/

/-- STATUS after a success: BUSY 0, DONE 1, OVR kept, ERR = NONE, DETAIL = 0. -/
def Sys2Proof.Claims.doneStatus (s : State) : Status := ⟨false, true, s.status.ovr, .none, 0#4⟩

/-- STATUS after an error: BUSY 0, DONE 1, OVR kept, the class and its cause bits. -/
def Sys2Proof.Claims.errorStatus (s : State) (e : ErrClass) (d : BitVec 4) : Status :=
  ⟨false, true, s.status.ovr, e, d⟩

/-- The latched n passes GEN's argument checks. -/
def Sys2Proof.Claims.ArgsOk (s : State) : Prop :=
  s.latch.nlen ≠ 0#64 ∧ s.latch.nlen.toNat % 4 = 0 ∧ s.latch.nlen.toNat ≤ Config.maxN

/-- The words a bank of registers stores. -/
def Sys2Proof.Claims.words (b : Bank Reg) : Image := b.map Reg.val

/-- OPC of a command word is one of 0x01 to 0x06. -/
def Sys2Proof.Claims.OpcKnown (w : Word) : Prop := 1 ≤ w.toNat % 256 ∧ w.toNat % 256 ≤ 6

/-- RSV of a command word is 0. -/
def Sys2Proof.Claims.RsvZero (w : Word) : Prop := w.toNat / 256 = 0

/-- The host's next operation writes w to the REG address a. -/
def Sys2Proof.Claims.Writes (s : State) (a : BitVec 6) (w : Word) : Prop :=
  ∃ p : List HostOp, s.prog = .regWrite a w :: p ∨ (s.prog = .regWriteLast a :: p ∧ w = s.rdata)

/-- A step from s to t that accepts a command: the host writes a word to CMD while IDLE. -/
def Sys2Proof.Claims.Accepts (s t : State) : Prop :=
  s.nextTurn = .host ∧ s.status.busy = false ∧ Claims.Writes s RegName.cmd.addr t.cmd ∧ t.latch.word = t.cmd ∧
    t.status = ⟨true, false, s.status.ovr, .none, 0#4⟩

/-- What a successful GEN leaves, from a working triple (42_generate R146, R147): the blocks in BUF words 0 to n - 1, every
BUF word from n on as before, the successor in OA, STATUS of a success, and nothing else changed. -/
def Sys2Proof.Claims.GenWrites (s t : State) (key : Block) (p0 p1 c0 c1 cur0 cur1 : Word) : Prop :=
  t = { s with
        oa := ⟨⟨key.x0, true⟩, ⟨key.x1, true⟩, ⟨key.x2, true⟩, ⟨key.x3, true⟩, ⟨p0, true⟩, ⟨p1, true⟩, ⟨0#64, true⟩,
          ⟨c1 + s.latch.nlen, true⟩, ⟨cur0, true⟩, ⟨cur1, true⟩⟩
        buf := t.buf
        status := Claims.doneStatus s } ∧
  (∀ i : Nat, i < s.latch.nlen.toNat / 4 →
    let b := mix key ⟨p0 + BitVec.ofNat 64 i, p1 + BitVec.ofNat 64 i, c0 + BitVec.ofNat 64 i, c1 + BitVec.ofNat 64 i⟩
    Memory.read t.buf (4 * i) = some b.x0 ∧ Memory.read t.buf (4 * i + 1) = some b.x1 ∧
    Memory.read t.buf (4 * i + 2) = some b.x2 ∧ Memory.read t.buf (4 * i + 3) = some b.x3) ∧
  ∀ k : Nat, s.latch.nlen.toNat ≤ k → Memory.read t.buf k = Memory.read s.buf k

/-! A transcription of 40_blockmix R100 to R106 in natural numbers and lists, apart from the model's definitions. -/

/-- The extended key ek[0..5] (R100). -/
def Sys2Proof.Claims.refKey (k : List Nat) : List Nat :=
  k ++ [k.foldl (fun a b => a ^^^ b) 0x1BD11BDAA9FC1A22]

/-- INJECT (R101). -/
def Sys2Proof.Claims.refInject (ek x : List Nat) (s : Nat) : List Nat :=
  (List.range 4).map fun j => (x.getD j 0 + ek.getD ((s + j) % 5) 0 + (if j = 3 then s else 0)) % 2 ^ 64

/-- The rotation table (R102). -/
def Sys2Proof.Claims.refRot : List (List Nat) :=
  [[14, 16], [52, 57], [23, 40], [5, 37], [25, 33], [46, 12], [58, 22], [32, 32]]

/-- Rotate left in 64 bits (00_scope section 4). -/
def Sys2Proof.Claims.refRotl (a r : Nat) : Nat := a * 2 ^ r % 2 ^ 64 + a / 2 ^ (64 - r)

/-- MIXROUND with its permutation (R103, R104). -/
def Sys2Proof.Claims.refRound (x : List Nat) (g : Nat) : List Nat :=
  let pair (q : Nat) : List Nat :=
    let a := x.getD (2 * q) 0
    let b := x.getD (2 * q + 1) 0
    [(a + b) % 2 ^ 64, ((a + b) % 2 ^ 64) ^^^ Claims.refRotl b ((Claims.refRot.getD (g % 8) []).getD q 0)]
  let y : List Nat := pair 0 ++ pair 1
  [0, 3, 2, 1].map fun j => y.getD j 0

/-- MIX (R106): twenty rounds, with the injection of stage g/4 before every fourth. -/
def Sys2Proof.Claims.refMix (k p : List Nat) : List Nat :=
  (List.range 20).foldl
    (fun x g => Claims.refRound (if g % 4 = 0 then Claims.refInject (Claims.refKey k) x (g / 4) else x) g) p

/-- The four words of a block as numbers. -/
def Sys2Proof.Claims.nats (b : Block) : List Nat := [b.x0.toNat, b.x1.toNat, b.x2.toNat, b.x3.toNat]

/-! ### Encodings -/

/-- 30_encoding R68: the opcode map, and that a command word decodes to X exactly when it is OPC(X). -/
def Obligations.DecodeAndEncodeAgree : Prop :=
  (encode .mix = 0x01#64 ∧ encode .cexh = 0x02#64 ∧ encode .cshr = 0x03#64 ∧ encode .check = 0x04#64 ∧
    encode .gen = 0x05#64 ∧ encode .split = 0x06#64) ∧
  (∀ i : Instr, i.wf = true → decode (encode i) = .ok i) ∧
  (∀ (w : Word) (i : Instr), decode w = .ok i → w = encode i) ∧
  ∀ w : Word, (∀ i : Instr, w ≠ encode i) → ∃ c, decode w = .error c

/-- 30_encoding R69, R70: every word is one of the six commands or ILLEGAL, with the causes that hold. -/
def Obligations.DecoderTotalWithCauses : Prop :=
  ∀ w : Word,
    (Claims.OpcKnown w ∧ Claims.RsvZero w → ∃ i, decode w = .ok i) ∧
    (¬ (Claims.OpcKnown w ∧ Claims.RsvZero w) →
      ∃ c, decode w = .error c ∧ (c.badOpcode = true ↔ ¬ Claims.OpcKnown w) ∧
        (c.reservedBits = true ↔ ¬ Claims.RsvZero w))

/-- The words of 95_test_vectors V-ILL and of the opcode table, one by one. -/
def Obligations.SampleWordsDecode : Prop :=
  decode 0x0000000000000001#64 = .ok .mix ∧ decode 0x0000000000000002#64 = .ok .cexh ∧
  decode 0x0000000000000003#64 = .ok .cshr ∧ decode 0x0000000000000004#64 = .ok .check ∧
  decode 0x0000000000000005#64 = .ok .gen ∧ decode 0x0000000000000006#64 = .ok .split ∧
  decode 0x0000000000000000#64 = .error ⟨true, false⟩ ∧ decode 0x0000000000000007#64 = .error ⟨true, false⟩ ∧
  decode 0x00000000000000FF#64 = .error ⟨true, false⟩ ∧ decode 0x0000000000000105#64 = .error ⟨false, true⟩ ∧
  decode 0x8000000000000001#64 = .error ⟨false, true⟩ ∧ decode 0x0000000000000107#64 = .error ⟨true, true⟩

/-- 30_encoding R61, R66: the three 128-bit fields are their words high word first, and both round trips of the codec are
the identity, on ill-formed images too. -/
def Obligations.StateCodecRoundTrip : Prop :=
  (∀ w : Image,
    (stateDecode w).key = ⟨w.w0, w.w1, w.w2, w.w3⟩ ∧
    (stateDecode w).path.toNat = w.w4.toNat * 2 ^ 64 + w.w5.toNat ∧
    (stateDecode w).counter.toNat = w.w6.toNat * 2 ^ 64 + w.w7.toNat ∧
    (stateDecode w).cursor.toNat = w.w8.toNat * 2 ^ 64 + w.w9.toNat ∧
    stateEncode (stateDecode w) = w) ∧
  ∀ f : GenState, stateDecode (stateEncode f) = f

/-- 30_encoding R73: the REG address of every register; and each address names that register. -/
def Obligations.RegisterAddresses : Prop :=
  RegName.cmd.addr = 0x00#6 ∧ RegName.status.addr = 0x01#6 ∧ RegName.nlen.addr = 0x02#6 ∧
  RegName.res.addr = 0x03#6 ∧ RegName.cfg.addr = 0x04#6 ∧
  (∀ i : Fin 10, (RegName.is i).addr.toNat = 0x10 + i.val ∧ (RegName.oa i).addr.toNat = 0x20 + i.val ∧
    (RegName.ob i).addr.toNat = 0x30 + i.val) ∧
  ∀ r : RegName, RegName.ofAddr r.addr = some r

/-- Derived from 10_state R18, R21: the codes of the four error classes, the fields of the STATUS word, its reserved
bits, and that ERR codes 4 to 15 are never read. -/
def Obligations.StatusWordFields : Prop :=
  (ErrClass.none.code = 0#4 ∧ ErrClass.illegal.code = 1#4 ∧ ErrClass.invalidArg.code = 2#4 ∧
    ErrClass.precondition.code = 3#4) ∧
  ∀ st : Status,
    st.word.getLsbD 0 = st.busy ∧ st.word.getLsbD 1 = st.done ∧ st.word.getLsbD 2 = st.ovr ∧
    st.word.getLsbD 3 = false ∧ st.word.extractLsb' 4 4 = st.err.code ∧ st.word.extractLsb' 8 4 = st.detail ∧
    (∀ b : Nat, 12 ≤ b → st.word.getLsbD b = false) ∧ (st.word.extractLsb' 4 4).toNat ≤ 3

/-- 10_state R23: CFG, what reading it gives in every state, and that no write changes anything; MAX_N is legal. -/
def Obligations.CfgDescribesBuild : Prop :=
  legalMaxN Config.maxN = true ∧
  Config.cfg = (BitVec.ofNat 64 Config.maxN <<< 32) ||| 0x1404#64 ∧
  Config.cfg.extractLsb' 0 8 = 4#8 ∧ Config.cfg.extractLsb' 8 8 = 20#8 ∧ Config.cfg.getLsbD 16 = false ∧
  Config.cfg.extractLsb' 17 15 = 0#15 ∧ (Config.cfg.extractLsb' 32 32).toNat = Config.maxN ∧
  ∀ (s : State) (v : Word), (s.regRead RegName.cfg.addr).rdata = Config.cfg ∧ s.regWrite RegName.cfg.addr v = s

/-! ### MIX -/

/-- 40_blockmix R107: MIX completes from every state, OA0 to OA3 take the block of the latched key and plaintext,
STATUS is that of a success, and nothing else changes; and its encoding. (Its worked example is MixWorkedExample.) -/
def Obligations.MixResult : Prop :=
  decode 0x0000000000000001#64 = .ok .mix ∧
  ∀ s : State,
    let g := s.latch.img
    let b := mix ⟨g.w0, g.w1, g.w2, g.w3⟩ ⟨g.w4, g.w5, g.w6, g.w7⟩
    exec .mix s = .next { s with
      oa := { s.oa with w0 := ⟨b.x0, true⟩, w1 := ⟨b.x1, true⟩, w2 := ⟨b.x2, true⟩, w3 := ⟨b.x3, true⟩ }
      status := Claims.doneStatus s }

/-- Derived: the worked example of 40_blockmix R107, which the spec marks as derived, and beside it V-MIX-6, with the
stage-5 injection. Both rest on the rotation table of R102, which the spec takes from general knowledge (log 12,
PRESUMED). -/
def Obligations.MixWorkedExample : Prop :=
  mix ⟨0#64, 0#64, 0#64, 0#64⟩ ⟨0#64, 0#64, 0#64, 0#64⟩ =
    ⟨0x09218EBDE6C85537#64, 0x55941F5266D86105#64, 0x4BD25E16282434DC#64, 0xEE29EC846BD2E406#64⟩ ∧
  mixWith true ⟨0#64, 0#64, 0#64, 0#64⟩ ⟨0#64, 0#64, 0#64, 0#64⟩ =
    ⟨0x09218EBDE6C85537#64, 0x55941F5266D86105#64, 0x4BD25E16282434DC#64, 0xEE29EC846BD2E40B#64⟩

/-- Derived from 40_blockmix R100 to R106: the model's MIX is the spec's, as transcribed in natural numbers above. The
rotation table of R102 is from the spec's general knowledge, not from its source (log 12, PRESUMED). -/
def Obligations.MixMatchesReference : Prop :=
  ∀ k p : Block, Claims.nats (mix k p) = Claims.refMix (Claims.nats k) (Claims.nats p)

/-- 40_blockmix R105: with FINAL_KEY_INJECTION the output is one more injection at stage 5; this hardware has none. -/
def Obligations.FinalInjectionIsParameter : Prop :=
  ∀ k p : Block, mixWith true k p = inject k (mixWith false k p) 5 ∧ mix k p = mixWith false k p

/-- Derived from 40_blockmix R100 to R106: under one key, different plaintexts give different blocks. -/
def Obligations.MixInjectiveInPlaintext : Prop :=
  ∀ k p q : Block, mix k p = mix k q → p = q

/-! ### CEXH, CSHR, CHECK -/

/-- 41_pathcursor R120, R123: CEXH completes from every state and RES is 1 exactly when both cursor words are 0. -/
def Obligations.CexhResult : Prop :=
  decode 0x0000000000000002#64 = .ok .cexh ∧
  ∀ s : State,
    exec .cexh s = .next { s with
      res := ⟨if s.latch.img.w8 = 0#64 ∧ s.latch.img.w9 = 0#64 then 1#64 else 0#64, true⟩
      status := Claims.doneStatus s }

/-- 41_pathcursor R121: the three cases of SHR1, and that on a one-hot or zero pair it is the 128-bit logical shift. -/
def Obligations.ShrOneIsLogicalShift : Prop :=
  (∀ lo : Word, shr1 1#64 lo = (0#64, 0x8000000000000000#64)) ∧
  (∀ lo : Word, shr1 0#64 lo = (0#64, lo >>> 1)) ∧
  (∀ hi lo : Word, 1 < hi.toNat → shr1 hi lo = (hi >>> 1, 0#64)) ∧
  ∀ hi lo : Word, popcount (cat128 hi lo) ≤ 1 → cat128 (shr1 hi lo).1 (shr1 hi lo).2 = cat128 hi lo >>> 1

/-- Derived from 41_pathcursor R121 and R127 (the spec's own derivation, its R128): SHR1 keeps cursors one-hot down to
(0, 0), the root needs 128 applications, and appending a bit keeps the path zero at and below the new cursor. -/
def Obligations.ShrOneProperties : Prop :=
  (∀ (hi lo : Word) (b : Nat), 0 < b → b < 128 → cat128 hi lo = 1#128 <<< b →
    cat128 (shr1 hi lo).1 (shr1 hi lo).2 = 1#128 <<< (b - 1)) ∧
  shr1 0#64 1#64 = (0#64, 0#64) ∧ shr1 0#64 0#64 = (0#64, 0#64) ∧
  (fun c : Word × Word => shr1 c.1 c.2)^[128] (0x8000000000000000#64, 0#64) = (0#64, 0#64) ∧
  (∀ k : Nat, (fun c : Word × Word => shr1 c.1 c.2)^[k] (0x8000000000000000#64, 0#64) = (0#64, 1#64) ↔ k = 127) ∧
  ∀ (p0 p1 c0 c1 : Word) (b : Nat), b < 128 → cat128 c0 c1 = 1#128 <<< b →
    (∀ j : Nat, j ≤ b → (cat128 p0 p1).getLsbD j = false) →
    (∀ j : Nat, j < b → (cat128 p0 p1).getLsbD j = false ∧ (cat128 (p0 ||| c0) (p1 ||| c1)).getLsbD j = false) ∧
    (0 < b → cat128 (shr1 c0 c1).1 (shr1 c0 c1).2 = 1#128 <<< (b - 1)) ∧
    (b = 0 → shr1 c0 c1 = (0#64, 0#64))

/-- 41_pathcursor R124: on a one-hot or zero pair CSHR completes with the shifted cursor in OA8 and OA9; on any other pair
it raises PRECONDITION with CURSOR_POP and writes no result (the report is recorded, 70_reset R224). -/
def Obligations.CshrResult : Prop :=
  decode 0x0000000000000003#64 = .ok .cshr ∧
  ∀ s : State,
    (popcount (cat128 s.latch.img.w8 s.latch.img.w9) ≤ 1 →
      exec .cshr s = .next { s with
        oa := { s.oa with
          w8 := ⟨(shr1 s.latch.img.w8 s.latch.img.w9).1, true⟩
          w9 := ⟨(shr1 s.latch.img.w8 s.latch.img.w9).2, true⟩ }
        status := Claims.doneStatus s }) ∧
    (1 < popcount (cat128 s.latch.img.w8 s.latch.img.w9) →
      exec .cshr s = .next { s with
        status := Claims.errorStatus s .precondition 0b0001#4
        faults := .precondition s.latch.word 0b0001#4 :: s.faults })

/-- 41_pathcursor R126: CHECK completes from every state with the zero-extended violation mask in RES, raising no error. -/
def Obligations.CheckResult : Prop :=
  decode 0x0000000000000004#64 = .ok .check ∧
  ∀ s : State,
    exec .check s = .next { s with
      res := ⟨0#60 ++ viol s.latch.img, true⟩
      status := Claims.doneStatus s }

/-- 30_encoding R65: what each violation bit says of the bits of the image. -/
def Obligations.ViolationMaskMeaning : Prop :=
  ∀ s : Image,
    ((viol s).getLsbD 0 = true ↔
      ∃ i j : Nat, i < j ∧ (cat128 s.w8 s.w9).getLsbD i = true ∧ (cat128 s.w8 s.w9).getLsbD j = true) ∧
    ((viol s).getLsbD 1 = true ↔
      ∃ b : Nat, b < 128 ∧ cat128 s.w8 s.w9 = 1#128 <<< b ∧ ∃ j : Nat, j ≤ b ∧ (cat128 s.w4 s.w5).getLsbD j = true) ∧
    ((viol s).getLsbD 2 = true ↔ s.w7 = 0xFFFFFFFFFFFFFFFF#64) ∧
    ((viol s).getLsbD 3 = true ↔ s.w6 ≠ 0#64)

/-! ### GEN -/

/-- 42_generate R140: if any argument cause holds GEN raises INVALID_ARG with all the bits that hold, whatever the state
image is, and writes nothing but STATUS. -/
def Obligations.GenArgumentErrors : Prop :=
  ∀ s : State, ¬ Claims.ArgsOk s →
    ∃ d : BitVec 4,
      (d.getLsbD 0 = true ↔ s.latch.nlen = 0#64) ∧ (d.getLsbD 1 = true ↔ s.latch.nlen.toNat % 4 ≠ 0) ∧
      (d.getLsbD 2 = true ↔ Config.maxN < s.latch.nlen.toNat) ∧ d.getLsbD 3 = false ∧
      exec .gen s = .next { s with status := Claims.errorStatus s .invalidArg d }

/-- 42_generate R141: if the arguments pass and the image is ill-formed GEN raises PRECONDITION with DETAIL = VIOL and
writes nothing but STATUS (the report is recorded, 70_reset R224). -/
def Obligations.GenStateErrors : Prop :=
  ∀ s : State, Claims.ArgsOk s → viol s.latch.img ≠ 0#4 →
    exec .gen s = .next { s with
      status := Claims.errorStatus s .precondition (viol s.latch.img)
      faults := .precondition s.latch.word (viol s.latch.img) :: s.faults }

/-- 42_generate R143: the HEADROOM branch, with the blocks of R146 and the results of R147. -/
def Obligations.GenHeadroomResult : Prop :=
  ∀ s : State, Claims.ArgsOk s → viol s.latch.img = 0#4 →
    s.latch.img.w7.toNat < 2 ^ 64 - 1 - s.latch.nlen.toNat →
    ∃ t : State, exec .gen s = .next t ∧
      Claims.GenWrites s t ⟨s.latch.img.w0, s.latch.img.w1, s.latch.img.w2, s.latch.img.w3⟩
        s.latch.img.w4 s.latch.img.w5 s.latch.img.w6 s.latch.img.w7 s.latch.img.w8 s.latch.img.w9

/-- 42_generate R144: the REHASH branch, with the blocks of R146 and the results of R147. -/
def Obligations.GenRehashResult : Prop :=
  ∀ s : State, Claims.ArgsOk s → viol s.latch.img = 0#4 →
    2 ^ 64 - 1 - s.latch.nlen.toNat ≤ s.latch.img.w7.toNat →
    s.latch.img.w8 = 0#64 → s.latch.img.w9 = 0#64 →
    ∃ t : State, exec .gen s = .next t ∧
      Claims.GenWrites s t
        (mix ⟨s.latch.img.w0, s.latch.img.w1, s.latch.img.w2, s.latch.img.w3⟩
          ⟨0xFFFFFFFFFFFFFFFF#64, 0xFFFFFFFFFFFFFFFF#64, 0#64, 0#64⟩)
        0#64 0#64 0#64 0#64 0x8000000000000000#64 0#64

/-- 42_generate R145: the PATH branch, with the blocks of R146 and the results of R147. -/
def Obligations.GenPathResult : Prop :=
  ∀ s : State, Claims.ArgsOk s → viol s.latch.img = 0#4 →
    2 ^ 64 - 1 - s.latch.nlen.toNat ≤ s.latch.img.w7.toNat →
    ¬ (s.latch.img.w8 = 0#64 ∧ s.latch.img.w9 = 0#64) →
    ∃ t : State, exec .gen s = .next t ∧
      Claims.GenWrites s t ⟨s.latch.img.w0, s.latch.img.w1, s.latch.img.w2, s.latch.img.w3⟩
        (s.latch.img.w4 ||| s.latch.img.w8) (s.latch.img.w5 ||| s.latch.img.w9) 0#64 0#64
        (shr1 s.latch.img.w8 s.latch.img.w9).1 (shr1 s.latch.img.w8 s.latch.img.w9).2

/-- Derived from 42_generate R142 to R147 (the spec's own derivation, its R149): the successor counter advances by n
or restarts at n, never wraps and is never the sentinel; and no block's counter word wraps. -/
def Obligations.GenCounterNeverWraps : Prop :=
  ∀ s t : State, exec .gen s = .next t → t.status.err = .none →
    let n := s.latch.nlen.toNat
    let c := s.latch.img.w7.toNat
    let base := if c < 2 ^ 64 - 1 - n then c else 0
    t.oa.w7.val.toNat = base + n ∧ base + n < 2 ^ 64 - 1 ∧
    ∀ i : Nat, i < n / 4 →
      (blockPlaintext (workingTriple s.latch.img s.latch.nlen) i).x3.toNat = base + i

/-- Derived from 41_pathcursor R121, R127, 30_encoding R65 and 42_generate R141 to R147: a successful GEN leaves a
well-formed state in OA. -/
def Obligations.GenSuccessorWellFormed : Prop :=
  ∀ s t : State, exec .gen s = .next t → t.status.err = .none → viol (Claims.words t.oa) = 0#4

/-- Derived from 42_generate R142 to R148 and 40_blockmix R100 to R106: within one successful GEN no two blocks are equal.
Stated of GEN's rule for every capacity m; the GEN command uses it with m = MAX_N, which can be as small as 4. -/
def Obligations.GenBlocksDistinct : Prop :=
  ∀ (m : Nat) (g : Image) (n : Word) (tr : Triple), genRule m g n = .ok tr →
    ∀ i j : Nat, i < j → j < n.toNat / 4 → genBlock tr i ≠ genBlock tr j

/-! ### SPLIT -/

/-- 43_split R160: on an ill-formed image SPLIT raises PRECONDITION with DETAIL = VIOL and writes nothing but STATUS (the
report is recorded, 70_reset R224). -/
def Obligations.SplitStateErrors : Prop :=
  ∀ s : State, viol s.latch.img ≠ 0#4 →
    exec .split s = .next { s with
      status := Claims.errorStatus s .precondition (viol s.latch.img)
      faults := .precondition s.latch.word (viol s.latch.img) :: s.faults }

/-- 43_split R161: the REHASH branch, when the cursor is exhausted. -/
def Obligations.SplitRehashResult : Prop :=
  ∀ s : State, viol s.latch.img = 0#4 → s.latch.img.w8 = 0#64 → s.latch.img.w9 = 0#64 →
    let g := s.latch.img
    let k := mix ⟨g.w0, g.w1, g.w2, g.w3⟩ ⟨g.w4, g.w5, g.w6, g.w7⟩
    let child : Word → Bank Reg := fun p => ⟨⟨k.x0, true⟩, ⟨k.x1, true⟩, ⟨k.x2, true⟩, ⟨k.x3, true⟩, ⟨p, true⟩,
      ⟨0#64, true⟩, ⟨0#64, true⟩, ⟨0#64, true⟩, ⟨0x4000000000000000#64, true⟩, ⟨0#64, true⟩⟩
    exec .split s = .next { s with
      oa := child 0#64
      ob := child 0x8000000000000000#64
      status := Claims.doneStatus s }

/-- 43_split R162: the EXTEND branch, when the cursor is not exhausted. -/
def Obligations.SplitExtendResult : Prop :=
  ∀ s : State, viol s.latch.img = 0#4 → ¬ (s.latch.img.w8 = 0#64 ∧ s.latch.img.w9 = 0#64) →
    let g := s.latch.img
    let c := shr1 g.w8 g.w9
    let child : Word → Word → Bank Reg := fun p q => ⟨⟨g.w0, true⟩, ⟨g.w1, true⟩, ⟨g.w2, true⟩, ⟨g.w3, true⟩, ⟨p, true⟩,
      ⟨q, true⟩, ⟨g.w6, true⟩, ⟨g.w7, true⟩, ⟨c.1, true⟩, ⟨c.2, true⟩⟩
    exec .split s = .next { s with
      oa := child g.w4 g.w5
      ob := child (g.w4 ||| g.w8) (g.w5 ||| g.w9)
      status := Claims.doneStatus s }

/-- Derived from 43_split R160 to R162 (the spec's own derivation, its R164): in every successful SPLIT the children
differ, in EXTEND at the cursor bit of the path, in REHASH at bit 127 of the path. -/
def Obligations.SplitChildrenDiffer : Prop :=
  ∀ s t : State, exec .split s = .next t → t.status.err = .none →
    let left := Claims.words t.oa
    let right := Claims.words t.ob
    left ≠ right ∧
    (s.latch.img.w8 = 0#64 ∧ s.latch.img.w9 = 0#64 →
      (cat128 left.w4 left.w5).getLsbD 127 = false ∧ (cat128 right.w4 right.w5).getLsbD 127 = true) ∧
    (¬ (s.latch.img.w8 = 0#64 ∧ s.latch.img.w9 = 0#64) →
      ∃ b : Nat, b < 128 ∧ cat128 s.latch.img.w8 s.latch.img.w9 = 1#128 <<< b ∧
        (cat128 left.w4 left.w5).getLsbD b = false ∧ (cat128 right.w4 right.w5).getLsbD b = true)

/-- Derived from 41_pathcursor R121, R127, 30_encoding R65 and 43_split R160 to R162: both children of a successful
SPLIT are well-formed. -/
def Obligations.SplitChildrenWellFormed : Prop :=
  ∀ s t : State, exec .split s = .next t → t.status.err = .none →
    viol (Claims.words t.oa) = 0#4 ∧ viol (Claims.words t.ob) = 0#4

/-- Derived from 43_split R162 and 42_generate R143, R146 (the spec's own derivation, its R165, which leaves the
headroom unsaid): while the parent has headroom, GEN on a state and GEN on its EXTEND left child give the same words.
-/
def Obligations.LeftChildSharesStream : Prop :=
  ∀ s u v u' v' : State,
    viol s.latch.img = 0#4 → ¬ (s.latch.img.w8 = 0#64 ∧ s.latch.img.w9 = 0#64) →
    exec .split s = .next u → u.status.err = .none →
    v.latch.img = Claims.words u.oa → v.latch.nlen = s.latch.nlen →
    s.latch.img.w7.toNat < 2 ^ 64 - 1 - s.latch.nlen.toNat → Claims.ArgsOk s →
    exec .gen s = .next u' → exec .gen v = .next v' →
    v'.status.err = .none ∧
    ∀ k : Nat, k < s.latch.nlen.toNat → Memory.read v'.buf k = Memory.read u'.buf k

/-! ### Errors, results and frames of all commands -/

/-- 60_exceptions R186: a command that raises an error writes STATUS and nothing else of the machine; the model's record is
its own (70_reset R224). -/
def Obligations.ErrorsWriteStatusOnly : Prop :=
  ∀ s t : State, s.status.busy = true → coreStep s = .next t → t.status.err ≠ .none →
    t = { s with
      status := Claims.errorStatus s t.status.err t.status.detail
      faults := t.faults }

/-- Derived from 60_exceptions R181 to R183 and the order of R185: which class the completion step reports. ILLEGAL
exactly for an illegal word, else INVALID_ARG exactly for a GEN whose argument fails, else PRECONDITION exactly for a
precondition violation. (The causes each carries are in the statements of each command.) -/
def Obligations.ErrorClassPriority : Prop :=
  ∀ s t : State, s.status.busy = true → coreStep s = .next t →
    (t.status.err = .illegal ↔ ∃ c, decode s.latch.word = .error c) ∧
    (t.status.err = .invalidArg ↔ decode s.latch.word = .ok .gen ∧ ¬ Claims.ArgsOk s) ∧
    (t.status.err = .precondition ↔
      (decode s.latch.word = .ok .gen ∧ Claims.ArgsOk s ∧ viol s.latch.img ≠ 0#4) ∨
      (decode s.latch.word = .ok .split ∧ viol s.latch.img ≠ 0#4) ∨
      (decode s.latch.word = .ok .cshr ∧ 1 < popcount (cat128 s.latch.img.w8 s.latch.img.w9)))

/-- 20_memory R52, 60_exceptions R180, 10_state R22: every command completes from every state, with BUSY 0, DONE 1, OVR
kept and cause bits that fit its one error class; MIX, CEXH and CHECK raise none. -/
def Obligations.CommandsComplete : Prop :=
  ∀ (i : Instr) (s : State), ∃ t : State, exec i s = .next t ∧
    t.status.busy = false ∧ t.status.done = true ∧ t.status.ovr = s.status.ovr ∧
    t.status.err.detailLegal t.status.detail = true ∧ t.status.err ≠ .illegal ∧
    ((i = .mix ∨ i = .cexh ∨ i = .check) → t.status.err = .none)

/-- Derived from 70_reset R221 and 10_state R26: the results, ERR and DETAIL of a command are a function of its
latched operands. Each result location either keeps its value in both runs or takes the same value in both. -/
def Obligations.ResultsDependOnLatchesOnly : Prop :=
  ∀ (i : Instr) (s u s' u' : State),
    s.latch.img = u.latch.img → s.latch.nlen = u.latch.nlen →
    exec i s = .next s' → exec i u = .next u' →
    s'.status.err = u'.status.err ∧ s'.status.detail = u'.status.detail ∧
    (∀ k : Fin 10, (s'.oa.get k = s.oa.get k ∧ u'.oa.get k = u.oa.get k) ∨ s'.oa.get k = u'.oa.get k) ∧
    (∀ k : Fin 10, (s'.ob.get k = s.ob.get k ∧ u'.ob.get k = u.ob.get k) ∨ s'.ob.get k = u'.ob.get k) ∧
    ((s'.res = s.res ∧ u'.res = u.res) ∨ s'.res = u'.res) ∧
    ∀ k : Nat, (Memory.read s'.buf k = Memory.read s.buf k ∧ Memory.read u'.buf k = Memory.read u.buf k) ∨
      Memory.read s'.buf k = Memory.read u'.buf k

/-- FRAME of all six commands, control and operands (10_state R11, R12, R20, R27): CMD, NLEN, IS, the latches and OVR are
unchanged, and so are the model's own host fields. -/
def Obligations.CommandFrameOperands : Prop :=
  ∀ (i : Instr) (s t : State), exec i s = .next t →
    t.cmd = s.cmd ∧ t.nlen = s.nlen ∧ t.is = s.is ∧ t.latch = s.latch ∧ t.status.ovr = s.status.ovr ∧
    t.prog = s.prog ∧ t.sched = s.sched ∧ t.rdata = s.rdata ∧ t.draws = s.draws

/-- FRAME of all six commands, results (10_state R13 to R16, 30_encoding R71): only SPLIT writes OB, only CEXH and CHECK
write RES, only GEN writes BUF and only words 0 to n - 1, CEXH and CHECK write no OA, MIX no OA4 to OA9, CSHR no OA0 to
OA7. -/
def Obligations.CommandFrameResults : Prop :=
  ∀ (i : Instr) (s t : State), exec i s = .next t →
    (i ≠ .split → t.ob = s.ob) ∧
    (i ≠ .cexh → i ≠ .check → t.res = s.res) ∧
    (i ≠ .gen → ∀ k : Nat, Memory.read t.buf k = Memory.read s.buf k) ∧
    (i = .gen → ∀ k : Nat, s.latch.nlen.toNat ≤ k → Memory.read t.buf k = Memory.read s.buf k) ∧
    (i = .cexh ∨ i = .check → t.oa = s.oa) ∧
    (i = .mix → ∀ k : Fin 10, 4 ≤ k.val → t.oa.get k = s.oa.get k) ∧
    (i = .cshr → ∀ k : Fin 10, k.val ≤ 7 → t.oa.get k = s.oa.get k)

/-! ### Accept, completion and the step -/

/-- 60_exceptions R181: an illegal command word in flight completes with ILLEGAL and the causes that hold; it reads no
operand and writes no result. -/
def Obligations.IllegalCommandCompletes : Prop :=
  ∀ s : State, s.nextTurn = .core → s.status.busy = true →
    ¬ (Claims.OpcKnown s.latch.word ∧ Claims.RsvZero s.latch.word) →
    operandsOfWord s.latch.word = [] ∧
    ∃ d : BitVec 4,
      (d.getLsbD 0 = true ↔ ¬ Claims.OpcKnown s.latch.word) ∧ (d.getLsbD 1 = true ↔ ¬ Claims.RsvZero s.latch.word) ∧
      d.getLsbD 2 = false ∧ d.getLsbD 3 = false ∧
      step s = .next { s with sched := s.sched.tail, status := Claims.errorStatus s .illegal d }

/-- Derived from 20_memory R51, R52, R56 and 30_encoding R72: a step runs the decoded command, and a step performs the
host's pending operation. When it is the core's turn, a command is in flight and its word decodes to i, the step is
exec of i with the turn taken off the schedule; and `withFetchWord` makes the very next step so. When it is the host's
turn, the step is the first pending operation, with the turn and the operation taken off: a write, a read, a BUF read,
a write of the word last read; and `wait` reads STATUS and stays pending exactly while BUSY. The schedule and the
host's program are the model's own (log 5, log 13, log 14). -/
def Obligations.StepRunsDecodedCommand : Prop :=
  (∀ (s : State) (i : Instr), s.nextTurn = .core → s.status.busy = true → decode s.latch.word = .ok i →
    step s = exec i s.popTurn) ∧
  (∀ (s : State) (i : Instr),
    step (s.withFetchWord 64 (encode i).toNat) = exec i { s.accept (encode i) with sched := s.sched }) ∧
  ∀ (s : State) (p : List HostOp), s.nextTurn = .host →
    let u := { s with sched := s.sched.tail, prog := p }
    (∀ (a : BitVec 6) (v : Word), s.prog = .regWrite a v :: p → step s = .next (u.regWrite a v)) ∧
    (∀ a : BitVec 6, s.prog = .regRead a :: p → step s = .next (u.regRead a)) ∧
    (∀ i : BitVec 32, s.prog = .bufRead i :: p → step s = .next (u.bufRead i)) ∧
    (∀ a : BitVec 6, s.prog = .regWriteLast a :: p → step s = .next (u.regWrite a s.rdata)) ∧
    (s.prog = .wait :: p →
      (s.status.busy = true → step s = .next { s with sched := s.sched.tail, rdata := s.status.word }) ∧
      (s.status.busy = false → step s = .next { u with rdata := s.status.word }))

/-- 20_memory R50: a CMD write while IDLE accepts the word: CMD, the latches, BUSY, DONE, ERR and DETAIL as the rule says,
OVR and every other register and BUF word unchanged. The record is the model's own (10_state R29). -/
def Obligations.AcceptEffect : Prop :=
  ∀ (s : State) (w : Word), s.status.busy = false →
    ∃ fs : List FaultEvent,
      s.regWrite RegName.cmd.addr w = { s with
        cmd := w
        latch := ⟨w, s.nlen.val, ⟨s.is.w0.val, s.is.w1.val, s.is.w2.val, s.is.w3.val, s.is.w4.val, s.is.w5.val,
          s.is.w6.val, s.is.w7.val, s.is.w8.val, s.is.w9.val⟩⟩
        status := ⟨true, false, s.status.ovr, .none, 0#4⟩
        faults := fs }

/-- 10_state R20: a CMD write while BUSY sets OVR and is otherwise discarded; OVR then stays set at every step until a host
write of STATUS with bit 2 = 1, which clears it, or reset. -/
def Obligations.OvrProtocol : Prop :=
  (∀ (s : State) (w : Word), s.status.busy = true →
    s.regWrite RegName.cmd.addr w = { s with status := { s.status with ovr := true } }) ∧
  (∀ (s : State) (v : Word),
    (s.regWrite RegName.status.addr v).status.ovr = (s.status.ovr && !v.getLsbD 2)) ∧
  ∀ s t : State, step s = .next t → s.status.ovr = true →
    t.status.ovr = true ∨ s.nextTurn = .reset ∨
    (s.nextTurn = .host ∧ ∃ v : Word, v.getLsbD 2 = true ∧ Claims.Writes s RegName.status.addr v)

/-- Derived from 10_state R26 and 70_reset R217: a host write of an IS register or of NLEN is not seen by the command in
flight. Done before the completion step or after it, the state is the same. -/
def Obligations.OperandWritesDuringBusyUnseen : Prop :=
  ∀ (i : Instr) (s t : State) (r : RegName) (v : Word), (r = .nlen ∨ ∃ k, r = .is k) →
    exec i s = .next t → exec i (s.regWrite r.addr v) = .next (t.regWrite r.addr v)

/-- Derived from 70_reset R219: every accepted command completes. From any state with a command in flight, within one step
more than the schedule is long the command has ended, by its completion step when the schedule holds no reset. That an
unscheduled step falls to the core is the model's choice (log 5, log 18). -/
def Obligations.AcceptedCommandCompletes : Prop :=
  ∀ s : State, s.status.busy = true →
    ∃ (k : Nat) (t : State), k ≤ s.sched.length + 1 ∧ Sys2Proof.core.run k s = .next t ∧ t.status.busy = false ∧
      (Turn.reset ∉ s.sched → t.status.done = true)

/-! ### Host accesses -/

/-- 20_memory R42, R43: a read of a reserved address returns 0 and changes nothing else; a write to a reserved address or
to RES, CFG, OA or OB changes nothing. -/
def Obligations.ReservedAndReadOnly : Prop :=
  (∀ (s : State) (a : BitVec 6),
    ((0x05 ≤ a.toNat ∧ a.toNat ≤ 0x0F) ∨ (0x1A ≤ a.toNat ∧ a.toNat ≤ 0x1F) ∨ (0x2A ≤ a.toNat ∧ a.toNat ≤ 0x2F) ∨
      0x3A ≤ a.toNat) →
    s.regRead a = { s with rdata := 0#64 } ∧ ∀ v : Word, s.regWrite a v = s) ∧
  ∀ (s : State) (v : Word),
    s.regWrite RegName.res.addr v = s ∧ s.regWrite RegName.cfg.addr v = s ∧
    ∀ k : Fin 10, s.regWrite (RegName.oa k).addr v = s ∧ s.regWrite (RegName.ob k).addr v = s

/-- 20_memory R49: host reads change no register, no BUF word and not the command machine, and while IDLE repeating one
returns the same word; host writes have exactly the effects the rule lists. -/
def Obligations.HostAccessEffects : Prop :=
  (∀ (s : State) (a : BitVec 6),
    s.regRead a = { s with rdata := (s.regRead a).rdata, faults := (s.regRead a).faults, draws := (s.regRead a).draws }) ∧
  (∀ (s : State) (i : BitVec 32),
    s.bufRead i = { s with rdata := (s.bufRead i).rdata, faults := (s.bufRead i).faults, draws := (s.bufRead i).draws }) ∧
  (∀ (s : State) (a : BitVec 6), s.status.busy = false → ((s.regRead a).regRead a).rdata = (s.regRead a).rdata) ∧
  (∀ (s : State) (i : BitVec 32), s.status.busy = false → ((s.bufRead i).bufRead i).rdata = (s.bufRead i).rdata) ∧
  ∀ (s : State) (v : Word),
    (∀ k : Fin 10, s.regWrite (RegName.is k).addr v = { s with is := s.is.set k ⟨v, true⟩ }) ∧
    s.regWrite RegName.nlen.addr v = { s with nlen := ⟨v, true⟩ } ∧
    (s.status.busy = false → s.regWrite RegName.cmd.addr v = s.accept v) ∧
    (s.status.busy = true → s.regWrite RegName.cmd.addr v = { s with status := { s.status with ovr := true } }) ∧
    (v.getLsbD 2 = true → s.regWrite RegName.status.addr v = { s with status := { s.status with ovr := false } }) ∧
    (v.getLsbD 2 = false → s.regWrite RegName.status.addr v = s) ∧
    ∀ a : BitVec 6, RegName.ofAddr a ≠ some .cmd → RegName.ofAddr a ≠ some .status → RegName.ofAddr a ≠ some .nlen →
      (∀ k : Fin 10, RegName.ofAddr a ≠ some (.is k)) → s.regWrite a v = s

/-- Derived from 10_state R11, R12, R29 and 20_memory R51: a word written to an IS register or to NLEN reads back, BUSY or
not, with no fault recorded, and every other IS register keeps its value. -/
def Obligations.OperandWriteReadsBack : Prop :=
  ∀ (s : State) (v : Word),
    (∀ k : Fin 10,
      (State.regRead (RegName.is k).addr (s.regWrite (RegName.is k).addr v)).rdata = v ∧
      (State.regRead (RegName.is k).addr (s.regWrite (RegName.is k).addr v)).faults = s.faults ∧
      ∀ j : Fin 10, j ≠ k → (s.regWrite (RegName.is k).addr v).is.get j = s.is.get j) ∧
    (State.regRead RegName.nlen.addr (s.regWrite RegName.nlen.addr v)).rdata = v ∧
    (State.regRead RegName.nlen.addr (s.regWrite RegName.nlen.addr v)).faults = s.faults

/-- Derived from 20_memory R53: while BUSY a host read of RES, OA, OB or a BUF word returns the next free draw,
whatever it is, and consumes it; a read of CMD, STATUS, NLEN, IS, CFG or a reserved address returns its defined value.
The counter of the draws is the model's choice (log 4), and so is that a value-less result location gives a draw too
(log 8). -/
def Obligations.BusyReads : Prop :=
  ∀ s : State, s.status.busy = true →
    (∀ r : RegName, (r = .res ∨ (∃ k, r = .oa k) ∨ ∃ k, r = .ob k) →
      (s.regRead r.addr).rdata = Config.draw s.draws ∧ (s.regRead r.addr).draws = s.draws + 1) ∧
    (∀ i : BitVec 32, i.toNat < Config.maxN →
      (s.bufRead i).rdata = Config.draw s.draws ∧ (s.bufRead i).draws = s.draws + 1) ∧
    (s.regRead RegName.cmd.addr).rdata = s.cmd ∧ (s.regRead RegName.status.addr).rdata = s.status.word ∧
    (s.regRead RegName.nlen.addr).rdata = s.nlen.val ∧ (s.regRead RegName.cfg.addr).rdata = Config.cfg ∧
    (∀ k : Fin 10, (s.regRead (RegName.is k).addr).rdata = (s.is.get k).val) ∧
    ∀ a : BitVec 6, RegName.ofAddr a = none → (s.regRead a).rdata = 0#64

/-- Derived from 10_state R13 to R15 and 20_memory R41: while IDLE a host read returns what the register holds. -/
def Obligations.IdleReads : Prop :=
  ∀ s : State, s.status.busy = false →
    (s.regRead RegName.cmd.addr).rdata = s.cmd ∧ (s.regRead RegName.status.addr).rdata = s.status.word ∧
    (s.regRead RegName.nlen.addr).rdata = s.nlen.val ∧ (s.regRead RegName.res.addr).rdata = s.res.val ∧
    ∀ k : Fin 10,
      (s.regRead (RegName.is k).addr).rdata = (s.is.get k).val ∧
      (s.regRead (RegName.oa k).addr).rdata = (s.oa.get k).val ∧
      (s.regRead (RegName.ob k).addr).rdata = (s.ob.get k).val

/-- 20_memory R45: while IDLE BufRead of a word that holds a value returns it, at or above MAX_N it returns 0, and no host
step writes BUF. (Which word a never-written one returns is a free value, log 3. That GEN alone writes BUF is
CommandFrameResults.) -/
def Obligations.BufReads : Prop :=
  (∀ (s : State) (i : BitVec 32) (v : Word), s.status.busy = false → i.toNat < Config.maxN →
    Memory.read s.buf i.toNat = some v → (s.bufRead i).rdata = v) ∧
  (∀ (s : State) (i : BitVec 32), Config.maxN ≤ i.toNat → s.bufRead i = { s with rdata := 0#64 }) ∧
  ∀ s : State, s.hostStep.buf = s.buf

/-! ### The fault record -/

/-- Derived from 70_reset R224 and 10_state R29: exactly the three events are recorded: a PRECONDITION report, a host
read of a location that holds no value, and an accept that latches a value-less operand. ILLEGAL and INVALID_ARG are
not. No step adds anything else: not another host access, not an idle turn, not a reset. That such an event is an
entry of a record, and no stop, is the model's reading (log 2), and so is that a value-less read while BUSY is one
(log 8). -/
def Obligations.FaultEventsRecorded : Prop :=
  (∀ s t : State, s.status.busy = true → coreStep s = .next t →
    (t.status.err = .precondition → t.faults = .precondition s.latch.word t.status.detail :: s.faults) ∧
    (t.status.err ≠ .precondition → t.faults = s.faults)) ∧
  (∀ (s : State) (r : RegName),
    (s.holds r = true → (s.regRead r.addr).faults = s.faults) ∧
    (s.holds r = false → (s.regRead r.addr).faults = .valuelessRead (.reg r) :: s.faults)) ∧
  (∀ (s : State) (i : BitVec 32),
    (i.toNat < Config.maxN → Memory.read s.buf i.toNat = none →
      (s.bufRead i).faults = .valuelessRead (.buf i.toNat) :: s.faults) ∧
    (i.toNat < Config.maxN → Memory.read s.buf i.toNat ≠ none → (s.bufRead i).faults = s.faults) ∧
    (Config.maxN ≤ i.toNat → (s.bufRead i).faults = s.faults)) ∧
  (∀ (s : State) (w : Word),
    ((∀ r ∈ operandsOfWord w, s.holds r = true) → (s.accept w).faults = s.faults) ∧
    ((∃ r ∈ operandsOfWord w, s.holds r = false) →
      ∃ rs, (s.accept w).faults = .valuelessAccept w rs :: s.faults ∧
        ∀ r, r ∈ rs ↔ r ∈ operandsOfWord w ∧ s.holds r = false)) ∧
  ∀ s t : State, step s = .next t → t.faults ≠ s.faults →
    (s.nextTurn = .core ∧ s.status.busy = true ∧ t.status.err = .precondition ∧
      t.faults = .precondition s.latch.word t.status.detail :: s.faults) ∨
    (s.nextTurn = .host ∧
      ((∃ (r : RegName) (p : List HostOp), s.prog = .regRead r.addr :: p ∧ s.holds r = false ∧
          t.faults = .valuelessRead (.reg r) :: s.faults) ∨
       (∃ (i : BitVec 32) (p : List HostOp), s.prog = .bufRead i :: p ∧ i.toNat < Config.maxN ∧
          Memory.read s.buf i.toNat = none ∧ t.faults = .valuelessRead (.buf i.toNat) :: s.faults) ∨
       (s.status.busy = false ∧ ∃ (w : Word) (rs : List RegName), Claims.Writes s RegName.cmd.addr w ∧
          (∃ r ∈ operandsOfWord w, s.holds r = false) ∧ t.faults = .valuelessAccept w rs :: s.faults)))

/-- Derived from 70_reset R224: no step clears an entry of the fault record, whoever takes the step, reset included
(log 9). -/
def Obligations.FaultRecordNeverCleared : Prop :=
  ∀ s t : State, step s = .next t → s.faults <:+ t.faults

/-! ### Reset, idleness and whole-machine rules -/

/-- Derived from 10_state R28, R29: what reset leaves, for every state the rule gives a value, and that no other
location holds one. That "holds no value" is a mark beside a register is the model's reading (log 2). -/
def Obligations.ResetValues : Prop :=
  State.reset.status.busy = false ∧ State.reset.cmd = 0#64 ∧ State.reset.status.word = 0#64 ∧
  (∀ r : RegName, State.reset.holds r = true ↔ (r = .cmd ∨ r = .status ∨ r = .cfg)) ∧
  ∀ i : Nat, Memory.read State.reset.buf i = none

/-- Derived from 70_reset R210 and 10_state R28: reset at any time abandons the command in flight and puts every
register in its reset state. The record lives on (70_reset R224). That the host's program, the rest of the schedule,
the word last read and the draw counter live on too is the model's choice (log 9). -/
def Obligations.ResetAtAnyTime : Prop :=
  ∀ s : State, s.nextTurn = .reset →
    ∃ t : State, step s = .next t ∧ t.status.busy = false ∧ t.cmd = 0#64 ∧ t.status.word = 0#64 ∧
      (∀ r : RegName, t.holds r = true ↔ (r = .cmd ∨ r = .status ∨ r = .cfg)) ∧
      (∀ i : Nat, Memory.read t.buf i = none) ∧ t.faults = s.faults ∧ t.prog = s.prog ∧ t.sched = s.sched.tail ∧
      t.rdata = s.rdata ∧ t.draws = s.draws

/-- Derived from 20_memory R56 and 70_reset R211: with no command in flight a core turn changes nothing, and with no host
operation pending a host turn changes nothing, but for the turn itself. -/
def Obligations.IdleMachineWaits : Prop :=
  (∀ s : State, s.nextTurn = .core → s.status.busy = false → step s = .next { s with sched := s.sched.tail }) ∧
  (∀ s : State, s.nextTurn = .host → s.prog = [] → step s = .next { s with sched := s.sched.tail }) ∧
  ∀ k : Nat, Sys2Proof.core.run k State.reset = .next State.reset

/-- Every step keeps the invariant: BUF is in its canonical form and lists only words that exist, STATUS is one the
protocol can produce, and while BUSY CMD reads the command in flight. -/
def Obligations.StepKeepsInvariant : Prop :=
  ∀ s t : State, s.inv = true → step s = .next t → t.inv = true

/-- The invariant holds after reset. -/
def Obligations.ResetMeetsInvariant : Prop := State.reset.inv = true

/-- Derived from 10_state R27 and 20_memory R50 to R52: OA, OB, RES and BUF change only at a completion step or at reset. -/
def Obligations.ResultsChangeOnlyAtCompletion : Prop :=
  ∀ s t : State, step s = .next t →
    (t.oa ≠ s.oa ∨ t.ob ≠ s.ob ∨ t.res ≠ s.res ∨ t.buf ≠ s.buf) →
    (s.nextTurn = .core ∧ s.status.busy = true) ∨ s.nextTurn = .reset

/-- Derived from 10_state R11, R12, R27: IS and NLEN change only by a host write to one of them or at reset. -/
def Obligations.OperandsChangeOnlyByHostWrite : Prop :=
  ∀ s t : State, step s = .next t → (t.is ≠ s.is ∨ t.nlen ≠ s.nlen) →
    s.nextTurn = .reset ∨
    (s.nextTurn = .host ∧ ∃ (a : BitVec 6) (v : Word) (p : List HostOp),
      (s.prog = .regWrite a v :: p ∨ s.prog = .regWriteLast a :: p) ∧
      (RegName.ofAddr a = some .nlen ∨ ∃ k, RegName.ofAddr a = some (.is k)))

/-- Derived from 10_state R10, R17, R19, R20, R26, 20_memory R50 and 60_exceptions R187: the latches and CMD change
only when a command is accepted or at reset, so the command in flight keeps its word and its operands until it
completes; and BUSY, DONE, ERR and DETAIL change only at an accept, at the completion of a command or at reset. -/
def Obligations.LatchesChangeOnlyAtAccept : Prop :=
  (∀ s t : State, step s = .next t → (t.latch ≠ s.latch ∨ t.cmd ≠ s.cmd) →
    s.nextTurn = .reset ∨ Claims.Accepts s t) ∧
  ∀ s t : State, step s = .next t →
    (t.status.busy ≠ s.status.busy ∨ t.status.done ≠ s.status.done ∨ t.status.err ≠ s.status.err ∨
      t.status.detail ≠ s.status.detail) →
    s.nextTurn = .reset ∨ (s.nextTurn = .core ∧ s.status.busy = true ∧ t.status.busy = false ∧ t.status.done = true) ∨
    Claims.Accepts s t
end

