-- ==== Sys2Proof/Laws/Memory.lean ====
section
/-! SUPPORT. The laws of BUF: read after write, and every operation keeps the canonical form and the index range. -/

namespace Sys2Proof.Machine

theorem Memory.wf_cons {c : Nat × Word} {m : Memory} :
    Memory.wf (c :: m) = true ↔ (∀ d ∈ m, c.1 < d.1) ∧ Memory.wf m = true := by
  simp [Memory.wf]

theorem Memory.below_iff {n : Nat} {m : Memory} : Memory.below n m = true ↔ ∀ c ∈ m, c.1 < n := by
  simp [Memory.below]

/-- A write adds its own index and no other. -/
theorem Memory.mem_write {m : Memory} {i : Nat} {v : Word} {c : Nat × Word} (h : c ∈ Memory.write m i v) :
    c = (i, v) ∨ c ∈ m := by
  induction m with
  | nil => simpa [Memory.write] using h
  | cons d m ih =>
    obtain ⟨j, u⟩ := d
    simp only [Memory.write] at h
    split at h
    · simpa using h
    · split at h
      · rcases List.mem_cons.mp h with h | h
        · exact .inl h
        · exact .inr (List.mem_cons_of_mem _ h)
      · rcases List.mem_cons.mp h with h | h
        · exact .inr (by simp [h])
        · exact (ih h).imp_right (List.mem_cons_of_mem _)

/-- A write keeps the canonical form. -/
theorem Memory.wf_write {m : Memory} (i : Nat) (v : Word) (h : Memory.wf m = true) :
    Memory.wf (Memory.write m i v) = true := by
  induction m with
  | nil => simp [Memory.write, Memory.wf]
  | cons d m ih =>
    obtain ⟨j, u⟩ := d
    obtain ⟨hlt, hm⟩ := Memory.wf_cons.mp h
    simp only [Memory.write]
    split
    next hij =>
      refine Memory.wf_cons.mpr ⟨fun c hc => ?_, h⟩
      rcases List.mem_cons.mp hc with rfl | hc
      · exact hij
      · exact Nat.lt_trans hij (hlt c hc)
    next hij =>
      split
      next heq => subst heq; exact Memory.wf_cons.mpr ⟨hlt, hm⟩
      next hne =>
        refine Memory.wf_cons.mpr ⟨fun c hc => ?_, ih hm⟩
        rcases Memory.mem_write hc with rfl | hc
        · exact show j < i by omega
        · exact hlt c hc

/-- A write below `n` keeps every index below `n`. -/
theorem Memory.below_write {n : Nat} {m : Memory} {i : Nat} (v : Word) (hi : i < n) (h : Memory.below n m = true) :
    Memory.below n (Memory.write m i v) = true := by
  refine Memory.below_iff.mpr fun c hc => ?_
  rcases Memory.mem_write hc with rfl | hc
  · exact hi
  · exact Memory.below_iff.mp h c hc

/-- A read after a write to the same index gives the word written, in any list. -/
@[simp] theorem Memory.read_write_same (m : Memory) (i : Nat) (v : Word) :
    Memory.read (Memory.write m i v) i = some v := by
  induction m with
  | nil => simp [Memory.write, Memory.read]
  | cons d m ih =>
    obtain ⟨j, u⟩ := d
    simp only [Memory.write]
    split
    · simp [Memory.read]
    · split
      · simp [Memory.read]
      · next hne => simp [Memory.read, ih, Ne.symm hne]

/-- A write leaves every other index alone, in any list. -/
theorem Memory.read_write_other {m : Memory} {i k : Nat} (v : Word) (h : k ≠ i) :
    Memory.read (Memory.write m i v) k = Memory.read m k := by
  induction m with
  | nil => simp [Memory.write, Memory.read, Ne.symm h]
  | cons d m ih =>
    obtain ⟨j, u⟩ := d
    simp only [Memory.write]
    split
    · simp [Memory.read, Ne.symm h]
    · split
      · next heq => subst heq; simp [Memory.read, Ne.symm h]
      · simp [Memory.read, ih]

theorem Memory.wf_writeList {m : Memory} (i : Nat) (vs : List Word) (h : Memory.wf m = true) :
    Memory.wf (Memory.writeList m i vs) = true := by
  induction vs generalizing m i with
  | nil => exact h
  | cons v vs ih => exact ih (i + 1) (Memory.wf_write i v h)

theorem Memory.below_writeList {n : Nat} {m : Memory} (i : Nat) (vs : List Word) (hi : i + vs.length ≤ n)
    (h : Memory.below n m = true) : Memory.below n (Memory.writeList m i vs) = true := by
  induction vs generalizing m i with
  | nil => exact h
  | cons v vs ih =>
    simp only [List.length_cons] at hi
    exact ih (i + 1) (by omega) (Memory.below_write v (by omega) h)

/-- Indices outside the written range read as before. -/
theorem Memory.read_writeList_outside {m : Memory} {i k : Nat} {vs : List Word} (h : k < i ∨ i + vs.length ≤ k) :
    Memory.read (Memory.writeList m i vs) k = Memory.read m k := by
  induction vs generalizing m i with
  | nil => rfl
  | cons v vs ih =>
    simp only [List.length_cons] at h
    rw [Memory.writeList, ih (by omega), Memory.read_write_other v (by omega)]

/-- Index `i + d` inside the written range reads the d-th word. -/
theorem Memory.read_writeList_inside {m : Memory} {i d : Nat} {vs : List Word} (h : d < vs.length) :
    Memory.read (Memory.writeList m i vs) (i + d) = vs[d]? := by
  induction vs generalizing m i d with
  | nil => simp at h
  | cons v vs ih =>
    rw [Memory.writeList]
    cases d with
    | zero => rw [Memory.read_writeList_outside (by omega)]; simp
    | succ d =>
      have := ih (m := Memory.write m i v) (i := i + 1) (d := d) (by simpa using h)
      rw [show i + (d + 1) = i + 1 + d by omega, this]; simp

end Sys2Proof.Machine
end

