-- ==== Sys2Proof/Laws/Operands.lean ====
section
/-! SUPPORT. The small laws of the operand forms, the build parameters and the decoder. -/

namespace Sys2Proof

@[simp] theorem Bank.get_set_same {α : Type} (b : Bank α) (i : Fin 10) (v : α) : (b.set i v).get i = v := by
  fin_cases i <;> rfl

theorem Bank.get_set_other {α : Type} (b : Bank α) {i j : Fin 10} (v : α) (h : j ≠ i) :
    (b.set i v).get j = b.get j := by
  fin_cases i <;> fin_cases j <;> first | rfl | exact absurd rfl h

@[simp] theorem Bank.get_map {α β : Type} (f : α → β) (b : Bank α) (i : Fin 10) : (b.map f).get i = f (b.get i) := by
  fin_cases i <;> rfl

/-- MAX_N is at least 4 (00_scope R3). -/
theorem Config.four_le_maxN : 4 ≤ Config.maxN := by
  unfold Config.maxN; omega

/-- MAX_N is at most 2^32 - 4 (00_scope R3). -/
theorem Config.maxN_le : Config.maxN ≤ 2 ^ 32 - 4 := by
  have := Nat.mod_lt Config.maxNChoice (show 0 < 2 ^ 30 - 1 by decide)
  unfold Config.maxN; omega

/-- Every legal MAX_N is the value of `Config.maxN` for some choice of the parameter behind it: the opaque parameter
shuts no legal build out. -/
theorem maxN_reaches_every_legal_value (n : Nat) (h : legalMaxN n = true) :
    ∃ c : Nat, 4 * (1 + c % (2 ^ 30 - 1)) = n := by
  simp only [legalMaxN, Bool.and_eq_true, beq_iff_eq, decide_eq_true_eq] at h
  refine ⟨n / 4 - 1, ?_⟩
  rw [Nat.mod_eq_of_lt (by omega)]
  omega

namespace Machine

/-- `hi:lo` as a number (30_encoding R61). -/
theorem toNat_cat128 (hi lo : Word) : (cat128 hi lo).toNat = hi.toNat * 2 ^ 64 + lo.toNat := by
  rw [cat128, BitVec.toNat_append, Nat.shiftLeft_eq, Nat.mul_comm, ← Nat.two_pow_add_eq_or_of_lt lo.isLt]

/-- The bits of `hi:lo`: the low word's below 64, the high word's from there on. -/
theorem getLsbD_cat128 (hi lo : Word) (j : Nat) :
    (cat128 hi lo).getLsbD j = if j < 64 then lo.getLsbD j else hi.getLsbD (j - 64) := by
  rw [cat128, BitVec.getLsbD_append]

/-- The map of the 64 REG addresses, both ways (20_memory R41, R44). -/
theorem RegName.ofAddr_eq_some : ∀ (a : BitVec 6) (r : RegName), RegName.ofAddr a = some r → r.addr = a := by
  intro a
  have h : ∀ a : BitVec 6, (RegName.ofAddr a).all (fun r => r.addr == a) = true := by decide
  intro r hr
  simpa [hr] using h a

end Machine

end Sys2Proof
end

