-- ==== Sys2Proof/Laws/State.lean ====
section
/-! SUPPORT. What each named update of the state leaves in each field: one lemma per field and update. -/

namespace Sys2Proof.Machine

/-! ### State.complete -/

@[simp] theorem State.complete_cmd (s : State) : s.complete.cmd = s.cmd := rfl
@[simp] theorem State.complete_status (s : State) : s.complete.status = { s.status with busy := false, done := true, err := .none, detail := 0#4 } := rfl
@[simp] theorem State.complete_nlen (s : State) : s.complete.nlen = s.nlen := rfl
@[simp] theorem State.complete_res (s : State) : s.complete.res = s.res := rfl
@[simp] theorem State.complete_is (s : State) : s.complete.is = s.is := rfl
@[simp] theorem State.complete_oa (s : State) : s.complete.oa = s.oa := rfl
@[simp] theorem State.complete_ob (s : State) : s.complete.ob = s.ob := rfl
@[simp] theorem State.complete_buf (s : State) : s.complete.buf = s.buf := rfl
@[simp] theorem State.complete_latch (s : State) : s.complete.latch = s.latch := rfl
@[simp] theorem State.complete_faults (s : State) : s.complete.faults = s.faults := rfl
@[simp] theorem State.complete_prog (s : State) : s.complete.prog = s.prog := rfl
@[simp] theorem State.complete_sched (s : State) : s.complete.sched = s.sched := rfl
@[simp] theorem State.complete_rdata (s : State) : s.complete.rdata = s.rdata := rfl
@[simp] theorem State.complete_draws (s : State) : s.complete.draws = s.draws := rfl

/-! ### State.raise -/

@[simp] theorem State.raise_cmd (e : CmdError) (s : State) : (s.raise e).cmd = s.cmd := rfl
@[simp] theorem State.raise_status (e : CmdError) (s : State) : (s.raise e).status = { s.status with busy := false, done := true, err := e.errClass, detail := e.detail } := rfl
@[simp] theorem State.raise_nlen (e : CmdError) (s : State) : (s.raise e).nlen = s.nlen := rfl
@[simp] theorem State.raise_res (e : CmdError) (s : State) : (s.raise e).res = s.res := rfl
@[simp] theorem State.raise_is (e : CmdError) (s : State) : (s.raise e).is = s.is := rfl
@[simp] theorem State.raise_oa (e : CmdError) (s : State) : (s.raise e).oa = s.oa := rfl
@[simp] theorem State.raise_ob (e : CmdError) (s : State) : (s.raise e).ob = s.ob := rfl
@[simp] theorem State.raise_buf (e : CmdError) (s : State) : (s.raise e).buf = s.buf := rfl
@[simp] theorem State.raise_latch (e : CmdError) (s : State) : (s.raise e).latch = s.latch := rfl
@[simp] theorem State.raise_faults (e : CmdError) (s : State) : (s.raise e).faults = e.record s.latch.word s.faults := rfl
@[simp] theorem State.raise_prog (e : CmdError) (s : State) : (s.raise e).prog = s.prog := rfl
@[simp] theorem State.raise_sched (e : CmdError) (s : State) : (s.raise e).sched = s.sched := rfl
@[simp] theorem State.raise_rdata (e : CmdError) (s : State) : (s.raise e).rdata = s.rdata := rfl
@[simp] theorem State.raise_draws (e : CmdError) (s : State) : (s.raise e).draws = s.draws := rfl

/-! ### State.accept -/

@[simp] theorem State.accept_cmd (w : Word) (s : State) : (s.accept w).cmd = w := rfl
@[simp] theorem State.accept_status (w : Word) (s : State) : (s.accept w).status = { s.status with busy := true, done := false, err := .none, detail := 0#4 } := rfl
@[simp] theorem State.accept_nlen (w : Word) (s : State) : (s.accept w).nlen = s.nlen := rfl
@[simp] theorem State.accept_res (w : Word) (s : State) : (s.accept w).res = s.res := rfl
@[simp] theorem State.accept_is (w : Word) (s : State) : (s.accept w).is = s.is := rfl
@[simp] theorem State.accept_oa (w : Word) (s : State) : (s.accept w).oa = s.oa := rfl
@[simp] theorem State.accept_ob (w : Word) (s : State) : (s.accept w).ob = s.ob := rfl
@[simp] theorem State.accept_buf (w : Word) (s : State) : (s.accept w).buf = s.buf := rfl
@[simp] theorem State.accept_latch (w : Word) (s : State) : (s.accept w).latch = ⟨w, s.nlen.val, s.is.map Reg.val⟩ := rfl
@[simp] theorem State.accept_faults (w : Word) (s : State) : (s.accept w).faults = s.acceptRecord w := rfl
@[simp] theorem State.accept_prog (w : Word) (s : State) : (s.accept w).prog = s.prog := rfl
@[simp] theorem State.accept_sched (w : Word) (s : State) : (s.accept w).sched = s.sched := rfl
@[simp] theorem State.accept_rdata (w : Word) (s : State) : (s.accept w).rdata = s.rdata := rfl
@[simp] theorem State.accept_draws (w : Word) (s : State) : (s.accept w).draws = s.draws := rfl

/-! ### State.writeOaBlock -/

@[simp] theorem State.writeOaBlock_cmd (b : Block) (s : State) : (s.writeOaBlock b).cmd = s.cmd := rfl
@[simp] theorem State.writeOaBlock_status (b : Block) (s : State) : (s.writeOaBlock b).status = s.status := rfl
@[simp] theorem State.writeOaBlock_nlen (b : Block) (s : State) : (s.writeOaBlock b).nlen = s.nlen := rfl
@[simp] theorem State.writeOaBlock_res (b : Block) (s : State) : (s.writeOaBlock b).res = s.res := rfl
@[simp] theorem State.writeOaBlock_is (b : Block) (s : State) : (s.writeOaBlock b).is = s.is := rfl
@[simp] theorem State.writeOaBlock_oa (b : Block) (s : State) : (s.writeOaBlock b).oa = { s.oa with w0 := Reg.put b.x0, w1 := Reg.put b.x1, w2 := Reg.put b.x2, w3 := Reg.put b.x3 } := rfl
@[simp] theorem State.writeOaBlock_ob (b : Block) (s : State) : (s.writeOaBlock b).ob = s.ob := rfl
@[simp] theorem State.writeOaBlock_buf (b : Block) (s : State) : (s.writeOaBlock b).buf = s.buf := rfl
@[simp] theorem State.writeOaBlock_latch (b : Block) (s : State) : (s.writeOaBlock b).latch = s.latch := rfl
@[simp] theorem State.writeOaBlock_faults (b : Block) (s : State) : (s.writeOaBlock b).faults = s.faults := rfl
@[simp] theorem State.writeOaBlock_prog (b : Block) (s : State) : (s.writeOaBlock b).prog = s.prog := rfl
@[simp] theorem State.writeOaBlock_sched (b : Block) (s : State) : (s.writeOaBlock b).sched = s.sched := rfl
@[simp] theorem State.writeOaBlock_rdata (b : Block) (s : State) : (s.writeOaBlock b).rdata = s.rdata := rfl
@[simp] theorem State.writeOaBlock_draws (b : Block) (s : State) : (s.writeOaBlock b).draws = s.draws := rfl

/-! ### State.writeOaCursor -/

@[simp] theorem State.writeOaCursor_cmd (c : Word × Word) (s : State) : (s.writeOaCursor c).cmd = s.cmd := rfl
@[simp] theorem State.writeOaCursor_status (c : Word × Word) (s : State) : (s.writeOaCursor c).status = s.status := rfl
@[simp] theorem State.writeOaCursor_nlen (c : Word × Word) (s : State) : (s.writeOaCursor c).nlen = s.nlen := rfl
@[simp] theorem State.writeOaCursor_res (c : Word × Word) (s : State) : (s.writeOaCursor c).res = s.res := rfl
@[simp] theorem State.writeOaCursor_is (c : Word × Word) (s : State) : (s.writeOaCursor c).is = s.is := rfl
@[simp] theorem State.writeOaCursor_oa (c : Word × Word) (s : State) : (s.writeOaCursor c).oa = { s.oa with w8 := Reg.put c.1, w9 := Reg.put c.2 } := rfl
@[simp] theorem State.writeOaCursor_ob (c : Word × Word) (s : State) : (s.writeOaCursor c).ob = s.ob := rfl
@[simp] theorem State.writeOaCursor_buf (c : Word × Word) (s : State) : (s.writeOaCursor c).buf = s.buf := rfl
@[simp] theorem State.writeOaCursor_latch (c : Word × Word) (s : State) : (s.writeOaCursor c).latch = s.latch := rfl
@[simp] theorem State.writeOaCursor_faults (c : Word × Word) (s : State) : (s.writeOaCursor c).faults = s.faults := rfl
@[simp] theorem State.writeOaCursor_prog (c : Word × Word) (s : State) : (s.writeOaCursor c).prog = s.prog := rfl
@[simp] theorem State.writeOaCursor_sched (c : Word × Word) (s : State) : (s.writeOaCursor c).sched = s.sched := rfl
@[simp] theorem State.writeOaCursor_rdata (c : Word × Word) (s : State) : (s.writeOaCursor c).rdata = s.rdata := rfl
@[simp] theorem State.writeOaCursor_draws (c : Word × Word) (s : State) : (s.writeOaCursor c).draws = s.draws := rfl

/-! ### State.writeOa -/

@[simp] theorem State.writeOa_cmd (g : Image) (s : State) : (s.writeOa g).cmd = s.cmd := rfl
@[simp] theorem State.writeOa_status (g : Image) (s : State) : (s.writeOa g).status = s.status := rfl
@[simp] theorem State.writeOa_nlen (g : Image) (s : State) : (s.writeOa g).nlen = s.nlen := rfl
@[simp] theorem State.writeOa_res (g : Image) (s : State) : (s.writeOa g).res = s.res := rfl
@[simp] theorem State.writeOa_is (g : Image) (s : State) : (s.writeOa g).is = s.is := rfl
@[simp] theorem State.writeOa_oa (g : Image) (s : State) : (s.writeOa g).oa = g.map Reg.put := rfl
@[simp] theorem State.writeOa_ob (g : Image) (s : State) : (s.writeOa g).ob = s.ob := rfl
@[simp] theorem State.writeOa_buf (g : Image) (s : State) : (s.writeOa g).buf = s.buf := rfl
@[simp] theorem State.writeOa_latch (g : Image) (s : State) : (s.writeOa g).latch = s.latch := rfl
@[simp] theorem State.writeOa_faults (g : Image) (s : State) : (s.writeOa g).faults = s.faults := rfl
@[simp] theorem State.writeOa_prog (g : Image) (s : State) : (s.writeOa g).prog = s.prog := rfl
@[simp] theorem State.writeOa_sched (g : Image) (s : State) : (s.writeOa g).sched = s.sched := rfl
@[simp] theorem State.writeOa_rdata (g : Image) (s : State) : (s.writeOa g).rdata = s.rdata := rfl
@[simp] theorem State.writeOa_draws (g : Image) (s : State) : (s.writeOa g).draws = s.draws := rfl

/-! ### State.writeOb -/

@[simp] theorem State.writeOb_cmd (g : Image) (s : State) : (s.writeOb g).cmd = s.cmd := rfl
@[simp] theorem State.writeOb_status (g : Image) (s : State) : (s.writeOb g).status = s.status := rfl
@[simp] theorem State.writeOb_nlen (g : Image) (s : State) : (s.writeOb g).nlen = s.nlen := rfl
@[simp] theorem State.writeOb_res (g : Image) (s : State) : (s.writeOb g).res = s.res := rfl
@[simp] theorem State.writeOb_is (g : Image) (s : State) : (s.writeOb g).is = s.is := rfl
@[simp] theorem State.writeOb_oa (g : Image) (s : State) : (s.writeOb g).oa = s.oa := rfl
@[simp] theorem State.writeOb_ob (g : Image) (s : State) : (s.writeOb g).ob = g.map Reg.put := rfl
@[simp] theorem State.writeOb_buf (g : Image) (s : State) : (s.writeOb g).buf = s.buf := rfl
@[simp] theorem State.writeOb_latch (g : Image) (s : State) : (s.writeOb g).latch = s.latch := rfl
@[simp] theorem State.writeOb_faults (g : Image) (s : State) : (s.writeOb g).faults = s.faults := rfl
@[simp] theorem State.writeOb_prog (g : Image) (s : State) : (s.writeOb g).prog = s.prog := rfl
@[simp] theorem State.writeOb_sched (g : Image) (s : State) : (s.writeOb g).sched = s.sched := rfl
@[simp] theorem State.writeOb_rdata (g : Image) (s : State) : (s.writeOb g).rdata = s.rdata := rfl
@[simp] theorem State.writeOb_draws (g : Image) (s : State) : (s.writeOb g).draws = s.draws := rfl

/-! ### State.writeRes -/

@[simp] theorem State.writeRes_cmd (v : Word) (s : State) : (s.writeRes v).cmd = s.cmd := rfl
@[simp] theorem State.writeRes_status (v : Word) (s : State) : (s.writeRes v).status = s.status := rfl
@[simp] theorem State.writeRes_nlen (v : Word) (s : State) : (s.writeRes v).nlen = s.nlen := rfl
@[simp] theorem State.writeRes_res (v : Word) (s : State) : (s.writeRes v).res = Reg.put v := rfl
@[simp] theorem State.writeRes_is (v : Word) (s : State) : (s.writeRes v).is = s.is := rfl
@[simp] theorem State.writeRes_oa (v : Word) (s : State) : (s.writeRes v).oa = s.oa := rfl
@[simp] theorem State.writeRes_ob (v : Word) (s : State) : (s.writeRes v).ob = s.ob := rfl
@[simp] theorem State.writeRes_buf (v : Word) (s : State) : (s.writeRes v).buf = s.buf := rfl
@[simp] theorem State.writeRes_latch (v : Word) (s : State) : (s.writeRes v).latch = s.latch := rfl
@[simp] theorem State.writeRes_faults (v : Word) (s : State) : (s.writeRes v).faults = s.faults := rfl
@[simp] theorem State.writeRes_prog (v : Word) (s : State) : (s.writeRes v).prog = s.prog := rfl
@[simp] theorem State.writeRes_sched (v : Word) (s : State) : (s.writeRes v).sched = s.sched := rfl
@[simp] theorem State.writeRes_rdata (v : Word) (s : State) : (s.writeRes v).rdata = s.rdata := rfl
@[simp] theorem State.writeRes_draws (v : Word) (s : State) : (s.writeRes v).draws = s.draws := rfl

/-! ### State.writeBuf -/

@[simp] theorem State.writeBuf_cmd (vs : List Word) (s : State) : (s.writeBuf vs).cmd = s.cmd := rfl
@[simp] theorem State.writeBuf_status (vs : List Word) (s : State) : (s.writeBuf vs).status = s.status := rfl
@[simp] theorem State.writeBuf_nlen (vs : List Word) (s : State) : (s.writeBuf vs).nlen = s.nlen := rfl
@[simp] theorem State.writeBuf_res (vs : List Word) (s : State) : (s.writeBuf vs).res = s.res := rfl
@[simp] theorem State.writeBuf_is (vs : List Word) (s : State) : (s.writeBuf vs).is = s.is := rfl
@[simp] theorem State.writeBuf_oa (vs : List Word) (s : State) : (s.writeBuf vs).oa = s.oa := rfl
@[simp] theorem State.writeBuf_ob (vs : List Word) (s : State) : (s.writeBuf vs).ob = s.ob := rfl
@[simp] theorem State.writeBuf_buf (vs : List Word) (s : State) : (s.writeBuf vs).buf = Memory.writeList s.buf 0 vs := rfl
@[simp] theorem State.writeBuf_latch (vs : List Word) (s : State) : (s.writeBuf vs).latch = s.latch := rfl
@[simp] theorem State.writeBuf_faults (vs : List Word) (s : State) : (s.writeBuf vs).faults = s.faults := rfl
@[simp] theorem State.writeBuf_prog (vs : List Word) (s : State) : (s.writeBuf vs).prog = s.prog := rfl
@[simp] theorem State.writeBuf_sched (vs : List Word) (s : State) : (s.writeBuf vs).sched = s.sched := rfl
@[simp] theorem State.writeBuf_rdata (vs : List Word) (s : State) : (s.writeBuf vs).rdata = s.rdata := rfl
@[simp] theorem State.writeBuf_draws (vs : List Word) (s : State) : (s.writeBuf vs).draws = s.draws := rfl

/-! ### State.deliver -/

@[simp] theorem State.deliver_cmd (l : Loc) (h : Bool) (v : Word) (s : State) : (s.deliver l h v).cmd = s.cmd := rfl
@[simp] theorem State.deliver_status (l : Loc) (h : Bool) (v : Word) (s : State) : (s.deliver l h v).status = s.status := rfl
@[simp] theorem State.deliver_nlen (l : Loc) (h : Bool) (v : Word) (s : State) : (s.deliver l h v).nlen = s.nlen := rfl
@[simp] theorem State.deliver_res (l : Loc) (h : Bool) (v : Word) (s : State) : (s.deliver l h v).res = s.res := rfl
@[simp] theorem State.deliver_is (l : Loc) (h : Bool) (v : Word) (s : State) : (s.deliver l h v).is = s.is := rfl
@[simp] theorem State.deliver_oa (l : Loc) (h : Bool) (v : Word) (s : State) : (s.deliver l h v).oa = s.oa := rfl
@[simp] theorem State.deliver_ob (l : Loc) (h : Bool) (v : Word) (s : State) : (s.deliver l h v).ob = s.ob := rfl
@[simp] theorem State.deliver_buf (l : Loc) (h : Bool) (v : Word) (s : State) : (s.deliver l h v).buf = s.buf := rfl
@[simp] theorem State.deliver_latch (l : Loc) (h : Bool) (v : Word) (s : State) : (s.deliver l h v).latch = s.latch := rfl
@[simp] theorem State.deliver_faults (l : Loc) (h : Bool) (v : Word) (s : State) : (s.deliver l h v).faults = if h then s.faults else .valuelessRead l :: s.faults := rfl
@[simp] theorem State.deliver_prog (l : Loc) (h : Bool) (v : Word) (s : State) : (s.deliver l h v).prog = s.prog := rfl
@[simp] theorem State.deliver_sched (l : Loc) (h : Bool) (v : Word) (s : State) : (s.deliver l h v).sched = s.sched := rfl
@[simp] theorem State.deliver_rdata (l : Loc) (h : Bool) (v : Word) (s : State) : (s.deliver l h v).rdata = v := rfl
@[simp] theorem State.deliver_draws (l : Loc) (h : Bool) (v : Word) (s : State) : (s.deliver l h v).draws = s.draws := rfl

/-! ### State.popTurn -/

@[simp] theorem State.popTurn_cmd (s : State) : s.popTurn.cmd = s.cmd := rfl
@[simp] theorem State.popTurn_status (s : State) : s.popTurn.status = s.status := rfl
@[simp] theorem State.popTurn_nlen (s : State) : s.popTurn.nlen = s.nlen := rfl
@[simp] theorem State.popTurn_res (s : State) : s.popTurn.res = s.res := rfl
@[simp] theorem State.popTurn_is (s : State) : s.popTurn.is = s.is := rfl
@[simp] theorem State.popTurn_oa (s : State) : s.popTurn.oa = s.oa := rfl
@[simp] theorem State.popTurn_ob (s : State) : s.popTurn.ob = s.ob := rfl
@[simp] theorem State.popTurn_buf (s : State) : s.popTurn.buf = s.buf := rfl
@[simp] theorem State.popTurn_latch (s : State) : s.popTurn.latch = s.latch := rfl
@[simp] theorem State.popTurn_faults (s : State) : s.popTurn.faults = s.faults := rfl
@[simp] theorem State.popTurn_prog (s : State) : s.popTurn.prog = s.prog := rfl
@[simp] theorem State.popTurn_sched (s : State) : s.popTurn.sched = s.sched.tail := rfl
@[simp] theorem State.popTurn_rdata (s : State) : s.popTurn.rdata = s.rdata := rfl
@[simp] theorem State.popTurn_draws (s : State) : s.popTurn.draws = s.draws := rfl

/-! ### State.resetEvent -/

@[simp] theorem State.resetEvent_cmd (s : State) : s.resetEvent.cmd = State.reset.cmd := rfl
@[simp] theorem State.resetEvent_status (s : State) : s.resetEvent.status = State.reset.status := rfl
@[simp] theorem State.resetEvent_nlen (s : State) : s.resetEvent.nlen = State.reset.nlen := rfl
@[simp] theorem State.resetEvent_res (s : State) : s.resetEvent.res = State.reset.res := rfl
@[simp] theorem State.resetEvent_is (s : State) : s.resetEvent.is = State.reset.is := rfl
@[simp] theorem State.resetEvent_oa (s : State) : s.resetEvent.oa = State.reset.oa := rfl
@[simp] theorem State.resetEvent_ob (s : State) : s.resetEvent.ob = State.reset.ob := rfl
@[simp] theorem State.resetEvent_buf (s : State) : s.resetEvent.buf = State.reset.buf := rfl
@[simp] theorem State.resetEvent_latch (s : State) : s.resetEvent.latch = State.reset.latch := rfl
@[simp] theorem State.resetEvent_faults (s : State) : s.resetEvent.faults = s.faults := rfl
@[simp] theorem State.resetEvent_prog (s : State) : s.resetEvent.prog = s.prog := rfl
@[simp] theorem State.resetEvent_sched (s : State) : s.resetEvent.sched = s.sched := rfl
@[simp] theorem State.resetEvent_rdata (s : State) : s.resetEvent.rdata = s.rdata := rfl
@[simp] theorem State.resetEvent_draws (s : State) : s.resetEvent.draws = s.draws := rfl

@[simp] theorem Reg.put_val (v : Word) : (Reg.put v).val = v := rfl
@[simp] theorem Reg.put_held (v : Word) : (Reg.put v).held = true := rfl

end Sys2Proof.Machine
end

