-- ==== Sys2Proof/Laws/Ops.lean ====
section
/-! SUPPORT. For each shared operation, once, everything it can do: what provers cite in place of unfolding it. -/

namespace Sys2Proof.Machine

/-! ### The core's side -/

/-- The record after an error keeps what it held. -/
theorem CmdError.suffix_record (e : CmdError) (w : Word) (fs : List FaultEvent) : fs <:+ e.record w fs := by
  cases e <;> simp [CmdError.record]

/-- The record after an accept keeps what it held. -/
theorem State.suffix_acceptRecord (s : State) (w : Word) : s.faults <:+ s.acceptRecord w := by
  unfold State.acceptRecord
  split <;> simp

/-- Everything CSHR can do: raise CURSOR_POP, or write the shifted cursor. -/
theorem execCshr_cases {s t : State} (h : execCshr s = .next t) :
    (1 < popcount (cat128 s.latch.img.w8 s.latch.img.w9) ∧
      t = s.raise (.preconditionViolation (bits4 true false false false))) ∨
    (¬ 1 < popcount (cat128 s.latch.img.w8 s.latch.img.w9) ∧
      t = (s.writeOaCursor (shr1 s.latch.img.w8 s.latch.img.w9)).complete) := by
  simp only [execCshr, cshrRule, Host.Outcome.next.injEq] at h
  subst h
  by_cases hp : 1 < popcount (cat128 s.latch.img.w8 s.latch.img.w9)
  · exact .inl ⟨hp, by simp [hp]⟩
  · exact .inr ⟨hp, by simp [hp]⟩

/-- Everything GEN can do: an argument error, a precondition error, or the results. -/
theorem execGen_cases {s t : State} (h : execGen s = .next t) :
    (argCauses Config.maxN s.latch.nlen ≠ 0#4 ∧ t = s.raise (.invalidArgument (argCauses Config.maxN s.latch.nlen))) ∨
    (argCauses Config.maxN s.latch.nlen = 0#4 ∧ viol s.latch.img ≠ 0#4 ∧
      t = s.raise (.preconditionViolation (viol s.latch.img))) ∨
    (argCauses Config.maxN s.latch.nlen = 0#4 ∧ viol s.latch.img = 0#4 ∧
      t = ((s.writeBuf (genValues (workingTriple s.latch.img s.latch.nlen) s.latch.nlen)).writeOa
        (genNext (workingTriple s.latch.img s.latch.nlen) s.latch.nlen)).complete) := by
  simp only [execGen, genRule, Host.Outcome.next.injEq] at h
  subst h
  by_cases ha : argCauses Config.maxN s.latch.nlen = 0#4
  · by_cases hv : viol s.latch.img = 0#4
    · exact .inr (.inr ⟨ha, hv, by simp [ha, hv]⟩)
    · exact .inr (.inl ⟨ha, hv, by simp [ha, hv]⟩)
  · exact .inl ⟨ha, by simp [ha]⟩

/-- Everything SPLIT can do: a precondition error, or the two children. -/
theorem execSplit_cases {s t : State} (h : execSplit s = .next t) :
    (viol s.latch.img ≠ 0#4 ∧ t = s.raise (.preconditionViolation (viol s.latch.img))) ∨
    (viol s.latch.img = 0#4 ∧
      t = ((s.writeOa (splitLeft s.latch.img)).writeOb (splitRight s.latch.img)).complete) := by
  simp only [execSplit, splitRule, Host.Outcome.next.injEq] at h
  subst h
  by_cases hv : viol s.latch.img = 0#4
  · exact .inr ⟨hv, by simp [hv]⟩
  · exact .inl ⟨hv, by simp [hv]⟩

/-- No argument cause holds exactly when n is a positive multiple of 4 within the capacity (42_generate R140). -/
theorem argCauses_eq_zero_iff (m : Nat) (n : Word) :
    argCauses m n = 0#4 ↔ n ≠ 0#64 ∧ n.toNat % 4 = 0 ∧ n.toNat ≤ m := by
  have h : ∀ b0 b1 b2 b3 : Bool, bits4 b0 b1 b2 b3 = 0#4 ↔ b0 = false ∧ b1 = false ∧ b2 = false ∧ b3 = false := by decide
  simp [argCauses, h]

/-- The values array has 4 words per block (42_generate R146). -/
theorem length_genValuesFrom (tr : Triple) (i c : Nat) : (genValuesFrom tr i c).length = 4 * c := by
  induction c generalizing i with
  | zero => rfl
  | succ c ih => simp [genValuesFrom, ih]; omega

/-! ### One step -/

/-- Everything the core's step can do. -/
theorem coreStep_cases {s t : State} (h : coreStep s = .next t) :
    (s.status.busy = false ∧ t = s) ∨
    (s.status.busy = true ∧ ∃ i, s.fetched = .ok i ∧ exec i s = .next t) ∨
    (s.status.busy = true ∧ ∃ c, s.fetched = .error c ∧ t = s.raise (.illegalCommand c.detail)) := by
  unfold coreStep at h
  split at h
  next hb =>
    split at h
    next i hi => exact .inr (.inl ⟨hb, i, hi, h⟩)
    next c hc => exact .inr (.inr ⟨hb, c, hc, (Host.Outcome.next.inj h).symm⟩)
  next hb => exact .inl ⟨by simpa using hb, (Host.Outcome.next.inj h).symm⟩

/-- Everything one step can do: the agent whose turn it is takes it. -/
theorem step_cases {s t : State} (h : step s = .next t) :
    (s.nextTurn = .host ∧ t = s.popTurn.hostStep) ∨
    (s.nextTurn = .core ∧ coreStep s.popTurn = .next t) ∨
    (s.nextTurn = .reset ∧ t = s.popTurn.resetEvent) := by
  unfold step at h
  split at h
  next hn => exact .inl ⟨hn, (Host.Outcome.next.inj h).symm⟩
  next hn => exact .inr (.inl ⟨hn, h⟩)
  next hn => exact .inr (.inr ⟨hn, (Host.Outcome.next.inj h).symm⟩)

/-- The host's turn: one access. -/
theorem step_host {s : State} (h : s.nextTurn = .host) : step s = .next s.popTurn.hostStep := by
  unfold step; rw [h]

/-- The core's turn: its step. -/
theorem step_core {s : State} (h : s.nextTurn = .core) : step s = coreStep s.popTurn := by
  unfold step; rw [h]

/-- Reset's turn. -/
theorem step_reset {s : State} (h : s.nextTurn = .reset) : step s = .next s.popTurn.resetEvent := by
  unfold step; rw [h]

/-! ### The host's side -/

/-- Everything a host write can do to the state (20_memory R49): set OVR, accept, clear OVR, write NLEN or one IS
register, or nothing. -/
theorem regWrite_cases (a : BitVec 6) (v : Word) (s : State) :
    (RegName.ofAddr a = some .cmd ∧ s.status.busy = true ∧
      s.regWrite a v = { s with status := { s.status with ovr := true } }) ∨
    (RegName.ofAddr a = some .cmd ∧ s.status.busy = false ∧ s.regWrite a v = s.accept v) ∨
    (RegName.ofAddr a = some .status ∧ v.getLsbD 2 = true ∧
      s.regWrite a v = { s with status := { s.status with ovr := false } }) ∨
    (RegName.ofAddr a = some .nlen ∧ s.regWrite a v = { s with nlen := Reg.put v }) ∨
    (∃ i, RegName.ofAddr a = some (.is i) ∧ s.regWrite a v = { s with is := s.is.set i (Reg.put v) }) ∨
    s.regWrite a v = s := by
  unfold State.regWrite
  cases h : RegName.ofAddr a with
  | none => simp
  | some r => cases r <;> simp <;> (try cases hb : s.status.busy) <;> (try cases v.getLsbD 2) <;> simp_all

/-- A delivery changes only the word read and the record, which keeps what it held. -/
theorem deliver_cases (l : Loc) (held : Bool) (v : Word) (s : State) :
    ∃ fs, s.deliver l held v = { s with rdata := v, faults := fs } ∧ s.faults <:+ fs := by
  cases held
  · exact ⟨_, rfl, List.suffix_cons _ _⟩
  · exact ⟨_, rfl, List.suffix_refl _⟩

/-- A delivery of a result location changes the draw counter too. -/
theorem deliverResult_cases (l : Loc) (held : Bool) (v : Word) (s : State) :
    ∃ u fs d, s.deliverResult l held v = { s with rdata := u, faults := fs, draws := d } ∧ s.faults <:+ fs := by
  unfold State.deliverResult
  split
  · obtain ⟨fs, e, hf⟩ := deliver_cases l held (Config.draw s.draws) s
    exact ⟨_, fs, _, by rw [e], hf⟩
  · obtain ⟨fs, e, hf⟩ := deliver_cases l held v s
    exact ⟨_, fs, s.draws, by rw [e], hf⟩

/-- Everything a host read can do to the state (20_memory R49): only the word read, the record and the draw counter
can change, and the record keeps what it held. -/
theorem regRead_cases (a : BitVec 6) (s : State) :
    ∃ v fs d, s.regRead a = { s with rdata := v, faults := fs, draws := d } ∧ s.faults <:+ fs := by
  have plain : ∀ l held v, ∃ u fs d, s.deliver l held v = { s with rdata := u, faults := fs, draws := d } ∧
      s.faults <:+ fs := fun l held v =>
    let ⟨fs, e, hf⟩ := deliver_cases l held v s
    ⟨v, fs, s.draws, by rw [e], hf⟩
  unfold State.regRead
  split <;>
    first
    | exact plain _ _ _
    | exact deliverResult_cases _ _ _ s
    | exact ⟨_, _, _, rfl, List.suffix_refl _⟩

/-- Everything a BUF read can do to the state, as for a register read. -/
theorem bufRead_cases (i : BitVec 32) (s : State) :
    ∃ v fs d, s.bufRead i = { s with rdata := v, faults := fs, draws := d } ∧ s.faults <:+ fs := by
  unfold State.bufRead
  split
  · exact deliverResult_cases _ _ _ s
  · exact ⟨_, _, _, rfl, List.suffix_refl _⟩

/-- Everything the host's step can do: nothing when it has no operation pending, a register write on the rest of the
program, or a change of the read data, the record, the draw counter and the program alone. -/
theorem hostStep_cases (s : State) :
    (s.prog = [] ∧ s.hostStep = s) ∨
    (∃ a v p, (s.prog = .regWrite a v :: p ∨ (s.prog = .regWriteLast a :: p ∧ v = s.rdata)) ∧
      s.hostStep = State.regWrite a v { s with prog := p }) ∨
    (∃ p v fs d, s.hostStep = { s with prog := p, rdata := v, faults := fs, draws := d } ∧ s.faults <:+ fs) := by
  unfold State.hostStep
  split
  next h => exact .inl ⟨h, rfl⟩
  next a v p h => exact .inr (.inl ⟨a, v, p, .inl h, rfl⟩)
  next a p h =>
    obtain ⟨v, fs, d, e, hf⟩ := regRead_cases a { s with prog := p }
    exact .inr (.inr ⟨p, v, fs, d, by rw [e], hf⟩)
  next i p h =>
    obtain ⟨v, fs, d, e, hf⟩ := bufRead_cases i { s with prog := p }
    exact .inr (.inr ⟨p, v, fs, d, by rw [e], hf⟩)
  next a p h => exact .inr (.inl ⟨a, s.rdata, p, .inr ⟨h, rfl⟩, rfl⟩)
  next p h =>
    obtain ⟨v, fs, d, e, hf⟩ := regRead_cases RegName.status.addr s
    split
    · exact .inr (.inr ⟨s.prog, v, fs, d, by rw [e], hf⟩)
    · exact .inr (.inr ⟨p, v, fs, d, by rw [e], hf⟩)

/-- Bit 0 of the STATUS word is BUSY, which `wait` polls (10_state R18). -/
@[simp] theorem Status.word_bit_zero (st : Status) : st.word[0] = st.busy := by
  rw [← BitVec.getLsbD_eq_getElem]
  simp only [Status.word, BitVec.getLsbD_append]
  cases st.busy <;> rfl

/-- A host read of STATUS gives the STATUS word and changes nothing else. -/
@[simp] theorem State.regRead_status (s : State) :
    s.regRead RegName.status.addr = { s with rdata := s.status.word } := rfl

/-! ### What the host's side adds to the fault record -/

/-- A delivery adds an entry exactly for a location that holds no value. -/
theorem deliver_faults (l : Loc) (held : Bool) (v : Word) (s : State) :
    (s.deliver l held v).faults = if held then s.faults else .valuelessRead l :: s.faults := rfl

/-- So does the delivery of a result location, BUSY or not (log 8). -/
theorem deliverResult_faults (l : Loc) (held : Bool) (v : Word) (s : State) :
    (s.deliverResult l held v).faults = if held then s.faults else .valuelessRead l :: s.faults := by
  unfold State.deliverResult
  split <;> rfl

/-- What a register read adds to the record: an entry exactly for a register that holds no value. -/
theorem regRead_faults (a : BitVec 6) (s : State) :
    (s.regRead a).faults = match RegName.ofAddr a with
      | some r => if s.holds r then s.faults else .valuelessRead (.reg r) :: s.faults
      | none => s.faults := by
  unfold State.regRead
  cases RegName.ofAddr a with
  | none => rfl
  | some r => cases r <;> first | rfl | exact deliverResult_faults _ _ _ s

/-- What a BUF read adds to the record: an entry exactly for a word below MAX_N that holds no value. -/
theorem bufRead_faults (i : BitVec 32) (s : State) :
    (s.bufRead i).faults =
      if i.toNat < Config.maxN ∧ Memory.read s.buf i.toNat = none then .valuelessRead (.buf i.toNat) :: s.faults
      else s.faults := by
  unfold State.bufRead
  by_cases hi : i.toNat < Config.maxN
  · rw [if_pos hi, deliverResult_faults]
    cases Memory.read s.buf i.toNat <;> simp [hi]
  · simp [hi]

/-- What an accept adds to the record: nothing, or one entry when an operand of the word holds no value. -/
theorem acceptRecord_cases (s : State) (w : Word) :
    s.acceptRecord w = s.faults ∨
    ((∃ r ∈ operandsOfWord w, s.holds r = false) ∧
      s.acceptRecord w = .valuelessAccept w (s.missingOperands w) :: s.faults) := by
  unfold State.acceptRecord
  cases h : s.missingOperands w with
  | nil => exact .inl rfl
  | cons r rs =>
    have hr : r ∈ s.missingOperands w := h ▸ List.mem_cons_self
    simp only [State.missingOperands, List.mem_filter, Bool.not_eq_true'] at hr
    exact .inr ⟨⟨r, hr⟩, rfl⟩

end Sys2Proof.Machine
end

