-- ==== Sys2Proof/Laws/PerInstr.lean ====
section
/-! SUPPORT. Facts about every instruction as syntax, one lemma per constructor. -/

namespace Sys2Proof.Laws.RoundTrip

/-- The encoder's word is legal, and the decoder and the opcode table's numbering read the instruction back from it
(30_encoding R68). -/
def Statement (i : Instr) : Prop :=
  i.wf = true ∧ (CmdFields.ofWord (encode i)).wf = true ∧ decode (encode i) = .ok i ∧
    decodeTableWord 64 (encode i).toNat = some i

theorem mix : Statement .mix := ⟨rfl, rfl, rfl, rfl⟩
theorem cexh : Statement .cexh := ⟨rfl, rfl, rfl, rfl⟩
theorem cshr : Statement .cshr := ⟨rfl, rfl, rfl, rfl⟩
theorem check : Statement .check := ⟨rfl, rfl, rfl, rfl⟩
theorem gen : Statement .gen := ⟨rfl, rfl, rfl, rfl⟩
theorem split : Statement .split := ⟨rfl, rfl, rfl, rfl⟩

end Sys2Proof.Laws.RoundTrip
end

