-- ==== Sys2Proof/Machine/HostNotation.lean ====
section
/-! DEFINITION. The pseudo-operations of the host notation, expanded to host operations (30_encoding R72). -/

namespace Sys2Proof.Machine

/-- `WR r, v`. -/
def hostWr (r : RegName) (v : Word) : List HostOp := [.regWrite r.addr v]

/-- `RD r`. -/
def hostRd (r : RegName) : List HostOp := [.regRead r.addr]

/-- `RDB i`. -/
def hostRdb (i : BitVec 32) : List HostOp := [.bufRead i]

/-- `CMD X` = `WR CMD, OPC(X)`. -/
def hostCmd (i : Instr) : List HostOp := hostWr .cmd (encode i)

/-- `WAIT`, the polling loop. -/
def hostWait : List HostOp := [.wait]

/-- `CLROVR` = `WR STATUS, 4`. -/
def hostClrOvr : List HostOp := hostWr .status 0x0000000000000004#64

/-- `LDS s0, …, s9`: ten writes in order. -/
def hostLds (s : Image) : List HostOp :=
  hostWr (.is 0) s.w0 ++ hostWr (.is 1) s.w1 ++ hostWr (.is 2) s.w2 ++ hostWr (.is 3) s.w3 ++ hostWr (.is 4) s.w4 ++
  hostWr (.is 5) s.w5 ++ hostWr (.is 6) s.w6 ++ hostWr (.is 7) s.w7 ++ hostWr (.is 8) s.w8 ++ hostWr (.is 9) s.w9

/-- `RD r -> v; WR ISi, v`. -/
def hostMove (r : Fin 10 → RegName) (i : Fin 10) : List HostOp :=
  [.regRead (r i).addr, .regWriteLast (RegName.is i).addr]

/-- For i = 0 to 9: read register i of a bank and write it to ISi. -/
def hostMoveBank (r : Fin 10 → RegName) : List HostOp :=
  hostMove r 0 ++ hostMove r 1 ++ hostMove r 2 ++ hostMove r 3 ++ hostMove r 4 ++
  hostMove r 5 ++ hostMove r 6 ++ hostMove r 7 ++ hostMove r 8 ++ hostMove r 9

/-- `MOVA`. -/
def hostMovA : List HostOp := hostMoveBank .oa

/-- `MOVB`. -/
def hostMovB : List HostOp := hostMoveBank .ob

/-- `RUN X` = `CMD X; WAIT`. -/
def hostRun (i : Instr) : List HostOp := hostCmd i ++ hostWait

end Sys2Proof.Machine
end

