-- ==== Sys2Proof/Tests/Slice0.lean ====
section
/-! SUPPORT. The model's own tests: expected values are those of 95_test_vectors, and the witnesses of the hypotheses. -/

namespace Sys2Proof.Tests

open Sys2Proof Sys2Proof.Machine

/-! ### Small states -/

/-- The state image with key 0: path, counter and cursor words as given. -/
def image (p0 p1 c0 c1 u0 u1 : Word) : Image := ⟨0#64, 0#64, 0#64, 0#64, p0, p1, c0, c1, u0, u1⟩

/-- ROOT0 of 95_test_vectors with counter word 7 as given. -/
def root (ctr : Word) : Image := image 0#64 0#64 0#64 ctr topBit 0#64

/-- A command in flight after reset: its word, the latched n and the latched image. -/
def inFlight (w n : Word) (g : Image) : State :=
  { State.reset with cmd := w, status := ⟨true, false, false, .none, 0#4⟩, latch := ⟨w, n, g⟩ }

/-- The state of a next outcome, and of no other. -/
def after (o : Host.Outcome State Fault Refusal) : Option State :=
  match o with
  | .next t => some t
  | .fault _ => none
  | .refused _ => none

/-! ### WellFormed: an ill-formed term for each check -/

theorem test_wf_refuses_opcode : (CmdFields.mk 0x00#8 0#56).opcLegal = false ∧ (CmdFields.mk 0x07#8 0#56).opcLegal = false := by
  decide

theorem test_wf_refuses_reserved : (CmdFields.mk 0x05#8 1#56).rsvLegal = false := by decide

theorem test_wf_refuses_word :
    (CmdFields.ofWord 0x107#64).wf = false ∧ (CmdFields.ofWord 0x105#64).wf = false ∧ (CmdFields.ofWord 0x7#64).wf = false ∧
      (CmdFields.ofWord 0x5#64).wf = true := by decide

theorem test_wf_refuses_maxN :
    legalMaxN 0 = false ∧ legalMaxN 6 = false ∧ legalMaxN 4294967296 = false ∧ legalMaxN 4 = true ∧
      legalMaxN 4294967292 = true := by decide

/-! ### Decode: each command's word bit by bit, OPC in bits 7:0 and RSV in 63:8 (30_encoding R67, R68), and V-ILL -/

theorem test_decode_mix : decode (0#56 ++ 0b00000001#8) = .ok .mix := by decide
theorem test_decode_cexh : decode (0#56 ++ 0b00000010#8) = .ok .cexh := by decide
theorem test_decode_cshr : decode (0#56 ++ 0b00000011#8) = .ok .cshr := by decide
theorem test_decode_check : decode (0#56 ++ 0b00000100#8) = .ok .check := by decide
theorem test_decode_gen : decode (0#56 ++ 0b00000101#8) = .ok .gen := by decide
theorem test_decode_split : decode (0#56 ++ 0b00000110#8) = .ok .split := by decide

theorem test_decode_illegal :
    decode (0#56 ++ 0b00000000#8) = .error ⟨true, false⟩ ∧ decode (0#56 ++ 0b11111111#8) = .error ⟨true, false⟩ ∧
      decode (1#56 ++ 0b00000101#8) = .error ⟨false, true⟩ ∧ decode (1#56 ++ 0b00000111#8) = .error ⟨true, true⟩ ∧
      decode ((1#1 ++ 0#55) ++ 0b00000001#8) = .error ⟨false, true⟩ := by decide

theorem test_decodeTableWord :
    decodeTableWord 64 5 = some .gen ∧ decodeTableWord 8 6 = some .split ∧ decodeTableWord 64 0x105 = none := by decide

/-- The word placed by `withFetchWord` is the one the very next step runs. -/
theorem test_step_runs_placed_word :
    (after (step (State.reset.withFetchWord 64 4))).map (fun t => (t.cmd, t.status.word)) = some (4#64, 0x2#64) := by
  decide

/-! ### MIX (95_test_vectors section 2) -/

/-- V-MIX-5 through the command: OA0 to OA3, STATUS, and OA4 untouched; then V-MIX-2 and V-MIX-7, where every addition
wraps, without and with the final injection. -/
theorem test_mix :
    (after (exec .mix (inFlight 1#64 0#64 ⟨1#64, 2#64, 3#64, 4#64, 5#64, 6#64, 7#64, 8#64, 1#64, 0#64⟩))).map
      (fun t => (t.oa.w0.val, t.oa.w1.val, t.oa.w2.val, t.oa.w3.val, t.oa.w4.held, t.status.word)) =
    some (0xD0945728FB044840#64, 0xDF5B31CFED3B8737#64, 0x278CB180E49E406E#64, 0xFB6678445236CB6F#64, false, 0x2#64) ∧
    mix ⟨allOnes, allOnes, allOnes, allOnes⟩ ⟨allOnes, allOnes, allOnes, allOnes⟩ =
      ⟨0x29C24097942BBA1C#64, 0x0371BBFB0F6F4E12#64, 0x3C231FFA33F83A1D#64, 0xCD29113FDE32D164#64⟩ ∧
    mixWith true ⟨allOnes, allOnes, allOnes, allOnes⟩ ⟨allOnes, allOnes, allOnes, allOnes⟩ =
      ⟨0x29C24097942BBA1B#64, 0x0371BBFB0F6F4E11#64, 0x3C231FFA33F83A1C#64, 0xCD29113FDE32D168#64⟩ := by
  decide

/-! ### CEXH, CSHR, CHECK (section 3) -/

/-- V-CEXH, rows (0, 0) and (1, 1). -/
theorem test_cexh :
    (after (exec .cexh (inFlight 2#64 0#64 (image 9#64 0#64 0#64 0#64 0#64 0#64)))).map (fun t => t.res) = some ⟨1#64, true⟩ ∧
    (after (exec .cexh (inFlight 2#64 0#64 (image 0#64 0#64 0#64 0#64 1#64 1#64)))).map (fun t => t.res) = some ⟨0#64, true⟩ := by
  decide

/-- V-CSHR, rows (1, 0), (0, 1) and (0, 0); and row (3, 0): OA unchanged, STATUS 0x132. -/
theorem test_cshr :
    (after (exec .cshr (inFlight 3#64 0#64 (image 0#64 0#64 0#64 0#64 1#64 0#64)))).map
      (fun t => (t.oa.w8.val, t.oa.w9.val, t.status.word)) = some (0#64, 0x8000000000000000#64, 0x2#64) ∧
    shr1 0#64 1#64 = (0#64, 0#64) ∧ shr1 0#64 0#64 = (0#64, 0#64) ∧
    (after (exec .cshr (inFlight 3#64 0#64 (image 0#64 0#64 0#64 0#64 3#64 0#64)))).map
      (fun t => (t.oa.w8.held, t.oa.w9.held, t.status.word, t.faults)) =
    some (false, false, 0x132#64, [.precondition 3#64 0b0001#4]) := by
  decide +kernel

/-- V-CHK-14 through the command, with no error in STATUS; then the masks of V-CHK-2, 4, 5, 8, 9, 10, 11, 12 and 13. -/
theorem test_check :
    (after (exec .check (inFlight 4#64 0#64 (image 0#64 0#64 7#64 allOnes 3#64 1#64)))).map
      (fun t => (t.res, t.status.word, t.faults)) = some (⟨13#64, true⟩, 0x2#64, []) ∧
    viol (root 0#64) = 0#4 ∧ viol (image 0#64 0#64 0#64 0#64 1#64 1#64) = 1#4 ∧
    viol (image 1#64 0#64 0#64 0#64 topBit 0#64) = 2#4 ∧ viol (image 0#64 1#64 0#64 allOnes 0#64 0#64) = 4#4 ∧
    viol (image allOnes allOnes 0#64 0#64 0#64 0#64) = 0#4 ∧ viol (image 0#64 1#64 0#64 0#64 0#64 1#64) = 2#4 ∧
    viol (image 0#64 2#64 0#64 0#64 0#64 1#64) = 0#4 ∧
    viol (image topBit 0#64 0#64 0#64 0x4000000000000000#64 0#64) = 0#4 ∧
    viol (image 0x4000000000000000#64 0#64 0#64 0#64 0x4000000000000000#64 0#64) = 2#4 := by
  decide +kernel

/-! ### GEN (section 4) -/

/-- V-GEN-13: two blocks, the path words wrapping for i = 1, and the successor. Then V-GEN-5, 6, 8b, 9 and E6: the branch
boundary at M - 5 and M - 4, the word crossing, the rehash, and the priority. -/
theorem test_gen :
    genRule 8 (image allOnes allOnes 0#64 5#64 0#64 0#64) 8#64 =
      .ok (genHeadroom (image allOnes allOnes 0#64 5#64 0#64 0#64)) ∧
    genValues (genHeadroom (image allOnes allOnes 0#64 5#64 0#64 0#64)) 8#64 =
      [0xD5F6751567C2BDBD#64, 0x0E9154CAF9AF2233#64, 0x2170A9416F4BCB2D#64, 0x9DF69426AAECBB32#64,
       0x5ED962E3B9C0B80D#64, 0x3A738D0CF7343048#64, 0x5CB34D407C470559#64, 0x7343B609479CA826#64] ∧
    genNext (genHeadroom (image allOnes allOnes 0#64 5#64 0#64 0#64)) 8#64 =
      image allOnes allOnes 0#64 13#64 0#64 0#64 ∧
    genRule 4 (root (allOnes - 5#64)) 4#64 = .ok (genHeadroom (root (allOnes - 5#64))) ∧
    (workingTriple (root (allOnes - 4#64)) 4#64, genValues (workingTriple (root (allOnes - 4#64)) 4#64) 4#64) =
      (⟨⟨0#64, 0#64, 0#64, 0#64⟩, topBit, 0#64, 0#64, 0#64, 0x4000000000000000#64, 0#64⟩,
       [0xB90F3B7A949AE122#64, 0x130347876C6762E1#64, 0x06EFF15CE5D065D5#64, 0x9CF21A44D0FBB221#64]) ∧
    genNext (workingTriple (image 0#64 0#64 0#64 (allOnes - 4#64) 1#64 0#64) 4#64) 4#64 =
      image 1#64 0#64 0#64 4#64 0#64 topBit ∧
    genNext (workingTriple (image 0#64 0#64 0#64 (allOnes - 4#64) 0#64 0#64) 4#64) 4#64 =
      ⟨0xF360D5C07E762A14#64, 0x76E5F7285EDAD13B#64, 0xAA6954B19830EEA4#64, 0xA3195A04D21E7B0B#64, 0#64, 0#64, 0#64, 4#64,
       topBit, 0#64⟩ ∧
    genValues (workingTriple (image 0#64 0#64 0#64 (allOnes - 4#64) 0#64 0#64) 4#64) 4#64 =
      [0x028E8DAF39CC81E6#64, 0x0F127EEEE40B7972#64, 0x52D3950C519A5843#64, 0x932C2F9EDD74B621#64] ∧
    genRule 8 (root allOnes) 6#64 = .error (.invalidArgument 0b0010#4) := by
  decide +kernel

/-! ### SPLIT (section 5) -/

/-- V-SPL-6, the REHASH branch through the command; V-SPL-3, the EXTEND branch where the cursor crosses words; V-SPL-E1. -/
theorem test_split :
    (after (exec .split (inFlight 6#64 0#64 ⟨1#64, 2#64, 3#64, 4#64, 5#64, 6#64, 0#64, 8#64, 0#64, 0#64⟩))).map
      (fun t => (t.oa.map Reg.val, t.ob.map Reg.val, t.status.word)) =
    some
      (⟨0x587E247BE4C8A91E#64, 0x096211A78A5000C9#64, 0xB83956CB3A075EFF#64, 0x25725C95FB24451D#64, 0#64, 0#64, 0#64, 0#64,
        0x4000000000000000#64, 0#64⟩,
       ⟨0x587E247BE4C8A91E#64, 0x096211A78A5000C9#64, 0xB83956CB3A075EFF#64, 0x25725C95FB24451D#64, topBit, 0#64, 0#64, 0#64,
        0x4000000000000000#64, 0#64⟩, 0x2#64) ∧
    splitRule (image 0#64 0#64 0#64 9#64 1#64 0#64) =
      .ok (image 0#64 0#64 0#64 9#64 0#64 topBit, image 1#64 0#64 0#64 9#64 0#64 topBit) ∧
    (after (exec .split (inFlight 6#64 0#64 (root allOnes)))).map (fun t => (t.oa.w0.held, t.ob.w0.held, t.status.word)) =
      some (false, false, 0x432#64) := by
  decide +kernel

/-! ### The host's side -/

/-- V-ILL, word 0x107: STATUS 0x312 and CMD reads the word back (10_state R17). -/
theorem test_illegal_status :
    (after (step (State.reset.withFetchWord 64 0x107))).map (fun t => (t.cmd, t.status.word, t.faults)) =
      some (0x107#64, 0x312#64, []) := by decide

/-- P5 schedule A, step 3 and step 6: OVR is set and nothing else changes, then bit 2 clears it. -/
theorem test_ovr :
    (State.regWrite 0x00#6 3#64 (inFlight 1#64 0#64 (root 0#64))).status.word = 0x5#64 ∧
    (State.regWrite 0x00#6 3#64 (inFlight 1#64 0#64 (root 0#64))).cmd = 1#64 ∧
    (State.regWrite 0x01#6 4#64 (State.regWrite 0x00#6 3#64 (inFlight 1#64 0#64 (root 0#64)))).status.word = 0x1#64 := by
  decide

/-- 10_state R29: the accept of MIX just after reset latches eight value-less operands, and the record says which. -/
theorem test_valueless_accept :
    (State.reset.accept 1#64).faults =
      [.valuelessAccept 1#64 [.is 0, .is 1, .is 2, .is 3, .is 4, .is 5, .is 6, .is 7]] ∧
    (State.reset.accept 7#64).faults = [] := by decide

/-- 10_state R29: a read of RES after reset is recorded; a read of STATUS or of a reserved address is not. -/
theorem test_valueless_read :
    (State.reset.regRead 0x03#6).faults = [.valuelessRead (.reg .res)] ∧ (State.reset.regRead 0x01#6).faults = [] ∧
      (State.reset.regRead 0x3F#6).faults = [] := by decide

/-- 30_encoding R72: the pseudo-operations' transactions, as P1 writes them. -/
theorem test_host_notation :
    hostCmd .gen = [.regWrite 0x00#6 5#64] ∧ hostClrOvr = [.regWrite 0x01#6 4#64] ∧
    hostMovB.take 2 = [.regRead 0x30#6, .regWriteLast 0x10#6] ∧ hostMovB.length = 20 ∧
    hostMovA.drop 18 = [.regRead 0x29#6, .regWriteLast 0x19#6] ∧
    (hostLds (root 0#64)).drop 8 = [.regWrite 0x18#6 topBit, .regWrite 0x19#6 0#64] ∧
    hostRun .split = [.regWrite 0x00#6 6#64, .wait] := by decide

/-- A host turn performs the operation: P1's first write, and a read of STATUS. -/
theorem test_step_performs_host_operation :
    (after (step { State.reset with prog := hostWr (.is 8) topBit })).map (fun t => (t.is.w8, t.prog)) =
      some (⟨topBit, true⟩, []) ∧
    (after (step { inFlight 1#64 0#64 (root 0#64) with prog := hostRd .status, sched := [.host] })).map
      (fun t => (t.rdata, t.status.busy)) = some (1#64, true) := by decide

/-- One WAIT access reads STATUS and stays pending while BUSY, and ends when IDLE. -/
theorem test_wait :
    (State.hostStep { inFlight 1#64 0#64 (root 0#64) with prog := [.wait] }).prog = [.wait] ∧
    (State.hostStep { State.reset with prog := [.wait] }).prog = [] := by decide

/-! ### Witnesses: for each statement with hypotheses, what meets them -/

/-- GEN of n words in flight on an image. -/
def genOn (g : Image) (n : Word) : State := inFlight 5#64 n g

/-- SPLIT in flight on an image. -/
def splitOn (g : Image) : State := inFlight 6#64 0#64 g

/-- n = 4 passes the argument checks in every build. -/
theorem argsOk_four (g : Image) : Claims.ArgsOk (genOn g 4#64) := by
  refine ⟨?_, ?_, Config.four_le_maxN⟩
  · show (4#64 : Word) ≠ 0#64
    decide
  · show (4#64 : Word).toNat % 4 = 0
    decide

theorem gen_succeeds {s : State} (ha : Claims.ArgsOk s) (hv : viol s.latch.img = 0#4) :
    ∃ t, exec .gen s = .next t ∧ t.status.err = .none := by
  refine ⟨_, rfl, ?_⟩
  rcases execGen_cases (s := s) rfl with ⟨h, _⟩ | ⟨_, h, _⟩ | ⟨_, _, e⟩
  · exact absurd ((argCauses_eq_zero_iff _ _).mpr ha) h
  · exact absurd hv h
  · rw [e]; rfl

/-- The images of the witnesses that are well-formed, and ROOT0 at the sentinel, which is not. -/
theorem viol_images :
    viol (root 0#64) = 0#4 ∧ viol (root 0xFFFFFFFFFFFFFFFA#64) = 0#4 ∧ viol (root 0xFFFFFFFFFFFFFFFB#64) = 0#4 ∧
    viol (image 0#64 0#64 0#64 0xFFFFFFFFFFFFFFFB#64 0#64 0#64) = 0#4 ∧
    viol (image allOnes allOnes 0#64 0#64 0#64 0#64) = 0#4 ∧ viol (image 0#64 0#64 0#64 0#64 0#64 0#64) = 0#4 ∧
    viol (image 0#64 0#64 0#64 9#64 0#64 1#64) = 0#4 ∧ viol (root allOnes) ≠ 0#4 := by decide +kernel

theorem split_runs {s : State} (hv : viol s.latch.img = 0#4) :
    exec .split s = .next ((s.writeOa (splitLeft s.latch.img)).writeOb (splitRight s.latch.img)).complete := by
  rcases execSplit_cases (s := s) rfl with ⟨h, _⟩ | ⟨_, e⟩
  · exact absurd hv h
  · exact congrArg _ e

theorem split_succeeds {s : State} (hv : viol s.latch.img = 0#4) :
    ∃ t, exec .split s = .next t ∧ t.status.err = .none := ⟨_, split_runs hv, rfl⟩

theorem split_fails {s : State} (hv : viol s.latch.img ≠ 0#4) :
    ∃ t, exec .split s = .next t ∧ t.status.err = .precondition := by
  refine ⟨_, rfl, ?_⟩
  rcases execSplit_cases (s := s) rfl with ⟨_, e⟩ | ⟨h, _⟩
  · rw [e]; rfl
  · exact absurd h hv

theorem witness_DecodeAndEncodeAgree :
    Instr.wf .mix = true ∧ decode 5#64 = .ok .gen ∧ ∀ i : Instr, (0x107#64 : Word) ≠ encode i := by
  refine ⟨by decide, by decide, fun i => ?_⟩
  cases i <;> decide

theorem witness_DecoderTotalWithCauses :
    (Claims.OpcKnown 1#64 ∧ Claims.RsvZero 1#64) ∧ (Claims.OpcKnown 6#64 ∧ Claims.RsvZero 6#64) ∧
    ¬ (Claims.OpcKnown 0#64 ∧ Claims.RsvZero 0#64) ∧ ¬ (Claims.OpcKnown 7#64 ∧ Claims.RsvZero 7#64) ∧
    ¬ (Claims.OpcKnown 0x105#64 ∧ Claims.RsvZero 0x105#64) := by
  unfold Claims.OpcKnown Claims.RsvZero; decide

theorem witness_StatusWordFields : ∃ b : Nat, 12 ≤ b ∧ b < 64 := ⟨12, by decide⟩

theorem witness_MixInjectiveInPlaintext :
    mix ⟨0#64, 0#64, 0#64, 0#64⟩ ⟨0#64, 0#64, 0#64, 1#64⟩ = mix ⟨0#64, 0#64, 0#64, 0#64⟩ ⟨0#64, 0#64, 0#64, 1#64⟩ := rfl

theorem popcounts :
    popcount (cat128 1#64 0#64) ≤ 1 ∧ popcount (cat128 0#64 0#64) ≤ 1 ∧ popcount (cat128 topBit 0#64) ≤ 1 ∧
    popcount (cat128 0#64 1#64) ≤ 1 ∧ 1 < popcount (cat128 3#64 0#64) ∧ 1 < popcount (cat128 1#64 1#64) := by
  decide +kernel

theorem witness_ShrOneIsLogicalShift :
    1 < (2#64 : Word).toNat ∧ popcount (cat128 1#64 0#64) ≤ 1 ∧ popcount (cat128 0#64 0#64) ≤ 1 ∧
      popcount (cat128 topBit 0#64) ≤ 1 :=
  ⟨by decide, popcounts.1, popcounts.2.1, popcounts.2.2.1⟩

/-- The cursor at bit 127, at bit 64, at bit 1 and at bit 0, each with the longest path it allows. -/
theorem witness_ShrOneProperties :
    cat128 topBit 0#64 = 1#128 <<< 127 ∧ cat128 1#64 0#64 = 1#128 <<< 64 ∧ cat128 0#64 2#64 = 1#128 <<< 1 ∧
    cat128 0#64 1#64 = 1#128 <<< 0 ∧
    (∀ j : Fin 65, (cat128 0xFFFFFFFFFFFFFFFE#64 0#64).getLsbD j.val = false) ∧
    (cat128 allOnes 0xFFFFFFFFFFFFFFFE#64).getLsbD 0 = false := by decide

theorem witness_CshrResult :
    popcount (cat128 0#64 1#64) ≤ 1 ∧ popcount (cat128 0#64 0#64) ≤ 1 ∧ 1 < popcount (cat128 3#64 0#64) ∧
      1 < popcount (cat128 1#64 1#64) := ⟨popcounts.2.2.2.1, popcounts.2.1, popcounts.2.2.2.2.1, popcounts.2.2.2.2.2⟩

/-- Each argument cause: n = 0, n = 6, and M, which is over every capacity. -/
theorem witness_GenArgumentErrors :
    ¬ Claims.ArgsOk (genOn (root 0#64) 0#64) ∧ ¬ Claims.ArgsOk (genOn (root 0#64) 6#64) ∧
      Config.maxN < (genOn (root 0#64) allOnes).latch.nlen.toNat := by
  refine ⟨fun h => h.1 rfl, fun h => absurd h.2.1 ?_, lt_of_le_of_lt Config.maxN_le ?_⟩
  · show ¬ (6#64 : Word).toNat % 4 = 0
    decide
  · show 2 ^ 32 - 4 < allOnes.toNat
    decide

theorem witness_GenStateErrors :
    Claims.ArgsOk (genOn (root allOnes) 4#64) ∧ viol (genOn (root allOnes) 4#64).latch.img ≠ 0#4 :=
  ⟨argsOk_four _, viol_images.2.2.2.2.2.2.2⟩

/-- V-GEN-5: the last counter with headroom. -/
theorem witness_GenHeadroomResult :
    Claims.ArgsOk (genOn (root 0xFFFFFFFFFFFFFFFA#64) 4#64) ∧
    viol (genOn (root 0xFFFFFFFFFFFFFFFA#64) 4#64).latch.img = 0#4 ∧
    (genOn (root 0xFFFFFFFFFFFFFFFA#64) 4#64).latch.img.w7.toNat <
      2 ^ 64 - 1 - (genOn (root 0xFFFFFFFFFFFFFFFA#64) 4#64).latch.nlen.toNat :=
  ⟨argsOk_four _, viol_images.2.1, by decide⟩

/-- V-GEN-9: the first counter without headroom, on an exhausted cursor. -/
theorem witness_GenRehashResult :
    let g := image 0#64 0#64 0#64 0xFFFFFFFFFFFFFFFB#64 0#64 0#64
    Claims.ArgsOk (genOn g 4#64) ∧ viol (genOn g 4#64).latch.img = 0#4 ∧
    2 ^ 64 - 1 - (genOn g 4#64).latch.nlen.toNat ≤ (genOn g 4#64).latch.img.w7.toNat ∧
    (genOn g 4#64).latch.img.w8 = 0#64 ∧ (genOn g 4#64).latch.img.w9 = 0#64 :=
  ⟨argsOk_four _, viol_images.2.2.2.1, by decide, rfl, rfl⟩

/-- V-GEN-6: the first counter without headroom, on a live cursor. -/
theorem witness_GenPathResult :
    let g := root 0xFFFFFFFFFFFFFFFB#64
    Claims.ArgsOk (genOn g 4#64) ∧ viol (genOn g 4#64).latch.img = 0#4 ∧
    2 ^ 64 - 1 - (genOn g 4#64).latch.nlen.toNat ≤ (genOn g 4#64).latch.img.w7.toNat ∧
    ¬ ((genOn g 4#64).latch.img.w8 = 0#64 ∧ (genOn g 4#64).latch.img.w9 = 0#64) :=
  ⟨argsOk_four _, viol_images.2.2.1, by decide, by decide⟩

/-- Also the witness of GenSuccessorWellFormed. -/
theorem witness_GenCounterNeverWraps :
    ∃ t, exec .gen (genOn (root 0xFFFFFFFFFFFFFFFB#64) 4#64) = .next t ∧ t.status.err = .none ∧
      0 < (genOn (root 0xFFFFFFFFFFFFFFFB#64) 4#64).latch.nlen.toNat / 4 := by
  obtain ⟨t, h, e⟩ := gen_succeeds (argsOk_four (root 0xFFFFFFFFFFFFFFFB#64)) viol_images.2.2.1
  exact ⟨t, h, e, by decide⟩

theorem witness_GenSuccessorWellFormed :
    ∃ t, exec .gen (genOn (root 0#64) 4#64) = .next t ∧ t.status.err = .none :=
  gen_succeeds (argsOk_four (root 0#64)) viol_images.1

theorem witness_GenBlocksDistinct :
    (∃ tr, genRule 8 (root 0#64) 8#64 = .ok tr) ∧ 0 < 1 ∧ 1 < (8#64 : Word).toNat / 4 := by
  refine ⟨⟨workingTriple (root 0#64) 8#64, ?_⟩, by decide, by decide⟩
  rw [genRule, if_neg (by decide), if_neg (by rw [viol_images.1]; decide)]

theorem witness_SplitStateErrors : viol (splitOn (root allOnes)).latch.img ≠ 0#4 := viol_images.2.2.2.2.2.2.2

theorem witness_SplitRehashResult :
    let s := splitOn (image allOnes allOnes 0#64 0#64 0#64 0#64)
    viol s.latch.img = 0#4 ∧ s.latch.img.w8 = 0#64 ∧ s.latch.img.w9 = 0#64 := ⟨viol_images.2.2.2.2.1, rfl, rfl⟩

/-- The root cursor and the last one, (0, 1). -/
theorem witness_SplitExtendResult :
    (let s := splitOn (root 0#64)
     viol s.latch.img = 0#4 ∧ ¬ (s.latch.img.w8 = 0#64 ∧ s.latch.img.w9 = 0#64)) ∧
    (let s := splitOn (image 0#64 0#64 0#64 9#64 0#64 1#64)
     viol s.latch.img = 0#4 ∧ ¬ (s.latch.img.w8 = 0#64 ∧ s.latch.img.w9 = 0#64)) := 
  ⟨⟨viol_images.1, by decide⟩, viol_images.2.2.2.2.2.2.1, by decide⟩

/-- A successful SPLIT in each branch. -/
theorem witness_SplitChildrenDiffer :
    (∃ t, exec .split (splitOn (root 0#64)) = .next t ∧ t.status.err = .none ∧
      ¬ ((splitOn (root 0#64)).latch.img.w8 = 0#64 ∧ (splitOn (root 0#64)).latch.img.w9 = 0#64)) ∧
    ∃ t, exec .split (splitOn (image 0#64 0#64 0#64 0#64 0#64 0#64)) = .next t ∧ t.status.err = .none ∧
      (splitOn (image 0#64 0#64 0#64 0#64 0#64 0#64)).latch.img.w8 = 0#64 ∧
      (splitOn (image 0#64 0#64 0#64 0#64 0#64 0#64)).latch.img.w9 = 0#64 :=
  ⟨(split_succeeds (s := splitOn (root 0#64)) viol_images.1).imp fun _ h => ⟨h.1, h.2, by decide⟩,
    (split_succeeds (s := splitOn (image 0#64 0#64 0#64 0#64 0#64 0#64)) viol_images.2.2.2.2.2.1).imp fun _ h =>
      ⟨h.1, h.2, rfl, rfl⟩⟩

theorem witness_SplitChildrenWellFormed :
    ∃ t, exec .split (splitOn (image 0#64 0#64 0#64 9#64 0#64 1#64)) = .next t ∧ t.status.err = .none :=
  split_succeeds (s := splitOn (image 0#64 0#64 0#64 9#64 0#64 1#64)) viol_images.2.2.2.2.2.2.1

/-- ROOT0, its left child (V-SPL-1), and GEN 4 on each (V-REUSE-2). -/
theorem witness_LeftChildSharesStream :
    let s := genOn (root 0#64) 4#64
    let v := genOn (image 0#64 0#64 0#64 0#64 0x4000000000000000#64 0#64) 4#64
    ∃ u u' v', viol s.latch.img = 0#4 ∧ ¬ (s.latch.img.w8 = 0#64 ∧ s.latch.img.w9 = 0#64) ∧
      exec .split s = .next u ∧ u.status.err = .none ∧ v.latch.img = Claims.words u.oa ∧ v.latch.nlen = s.latch.nlen ∧
      s.latch.img.w7.toNat < 2 ^ 64 - 1 - s.latch.nlen.toNat ∧ Claims.ArgsOk s ∧
      exec .gen s = .next u' ∧ exec .gen v = .next v' :=
  ⟨_, _, _, viol_images.1, by decide, split_runs (s := genOn (root 0#64) 4#64) viol_images.1, rfl, by decide, rfl, by decide,
    argsOk_four _, rfl, rfl⟩

/-- A failing command of each class. -/
theorem witness_ErrorsWriteStatusOnly :
    (∃ t, coreStep (inFlight 7#64 0#64 (root 0#64)) = .next t ∧ t.status.err = .illegal) ∧
    (∃ t, coreStep (genOn (root allOnes) 6#64) = .next t ∧ t.status.err = .invalidArg) ∧
    (∃ t, coreStep (splitOn (root allOnes)) = .next t ∧ t.status.err = .precondition) := by
  refine ⟨⟨_, rfl, by decide⟩, ⟨_, rfl, ?_⟩, split_fails (s := splitOn (root allOnes)) viol_images.2.2.2.2.2.2.2⟩
  rcases execGen_cases (s := genOn (root allOnes) 6#64) rfl with ⟨_, e⟩ | ⟨h, _⟩ | ⟨h, _⟩
  · rw [e]; rfl
  all_goals exact absurd ((argCauses_eq_zero_iff _ _).mp h).2.1 (by decide)

/-- The same three, and a GEN that succeeds: the hypotheses of ErrorClassPriority hold in each case. -/
theorem witness_ErrorClassPriority :
    (inFlight 7#64 0#64 (root 0#64)).status.busy = true ∧ decode (inFlight 7#64 0#64 (root 0#64)).latch.word = .error ⟨true, false⟩ ∧
    (genOn (root allOnes) 6#64).status.busy = true ∧ decode (genOn (root allOnes) 6#64).latch.word = .ok .gen ∧
    ∃ t, coreStep (genOn (root 0#64) 4#64) = .next t := ⟨rfl, by decide, rfl, by decide, _, rfl⟩

theorem witness_ResultsDependOnLatchesOnly :
    let s := inFlight 1#64 0#64 (root 0#64)
    let u := { s with oa := Bank.set s.oa 0 ⟨7#64, true⟩, res := ⟨9#64, true⟩ }
    s ≠ u ∧ s.latch.img = u.latch.img ∧ s.latch.nlen = u.latch.nlen ∧
      (∃ s', exec .mix s = .next s') ∧ ∃ u', exec .mix u = .next u' :=
  ⟨by decide, rfl, rfl, ⟨_, rfl⟩, _, rfl⟩

/-- Every command answers a next state from every state: the witness of both frames. -/
theorem witness_CommandFrames (i : Instr) : ∃ t, exec i (inFlight (encode i) 4#64 (root 0#64)) = .next t := by
  cases i <;> exact ⟨_, rfl⟩

theorem witness_IllegalCommandCompletes :
    (inFlight 0x107#64 0#64 (root 0#64)).nextTurn = .core ∧ (inFlight 0x107#64 0#64 (root 0#64)).status.busy = true ∧
      ¬ (Claims.OpcKnown (inFlight 0x107#64 0#64 (root 0#64)).latch.word ∧
        Claims.RsvZero (inFlight 0x107#64 0#64 (root 0#64)).latch.word) :=
  ⟨rfl, rfl, fun h => absurd h.2 (show ¬ (0x107#64 : Word).toNat / 256 = 0 by decide)⟩

theorem witness_StepRunsDecodedCommand :
    (genOn (root 0#64) 4#64).nextTurn = .core ∧ (genOn (root 0#64) 4#64).status.busy = true ∧
      decode (genOn (root 0#64) 4#64).latch.word = .ok .gen := ⟨rfl, rfl, by decide⟩

/-- The host's turn with each of its operations next, and `wait` while BUSY and while IDLE. -/
theorem witness_StepPerformsHostOperation :
    (∀ op : HostOp, State.nextTurn { State.reset with prog := [op] } = .host) ∧
    State.reset.status.busy = false ∧
    (let s := { genOn (root 0#64) 4#64 with prog := [.wait], sched := [.host] }
     s.nextTurn = .host ∧ s.status.busy = true ∧ s.prog = [.wait]) := ⟨fun _ => rfl, rfl, rfl, rfl, rfl⟩

theorem witness_AcceptEffect : State.reset.status.busy = false := rfl

/-- The three clauses: a CMD write while BUSY; a step that keeps OVR; a step that clears it. -/
theorem witness_OvrProtocol :
    (inFlight 1#64 0#64 (root 0#64)).status.busy = true ∧
    (let s := { State.reset with status := ⟨false, true, true, .none, 0#4⟩ }
     s.status.ovr = true ∧ step s = .next s) ∧
    (let s := { State.reset with status := ⟨false, true, true, .none, 0#4⟩, prog := hostClrOvr }
     s.status.ovr = true ∧ (after (step s)).map (fun t => t.status.ovr) = some false) := by
  refine ⟨rfl, ⟨rfl, rfl⟩, rfl, by decide⟩

theorem witness_OperandWritesDuringBusyUnseen :
    (∃ t, exec .split (splitOn (root 0#64)) = .next t) ∧ ∃ k : Fin 10, RegName.is 9 = .is k := ⟨⟨_, rfl⟩, 9, rfl⟩

/-- A schedule with no reset in it, and one with. -/
theorem witness_AcceptedCommandCompletes :
    (let s := { genOn (root 0#64) 4#64 with sched := [.host, .host, .core] }
     s.status.busy = true ∧ Turn.reset ∉ s.sched) ∧
    (let s := { genOn (root 0#64) 4#64 with sched := [.host, .reset] }
     s.status.busy = true ∧ Turn.reset ∈ s.sched) := by decide

/-- The ends of the four reserved ranges, and their neighbours, which are registers. -/
theorem witness_ReservedAndReadOnly :
    RegName.ofAddr 0x05#6 = none ∧ RegName.ofAddr 0x0F#6 = none ∧ RegName.ofAddr 0x1A#6 = none ∧
    RegName.ofAddr 0x1F#6 = none ∧ RegName.ofAddr 0x2A#6 = none ∧ RegName.ofAddr 0x2F#6 = none ∧
    RegName.ofAddr 0x3A#6 = none ∧ RegName.ofAddr 0x3F#6 = none ∧ RegName.ofAddr 0x04#6 = some .cfg ∧
    RegName.ofAddr 0x10#6 = some (.is 0) ∧ RegName.ofAddr 0x19#6 = some (.is 9) ∧ RegName.ofAddr 0x20#6 = some (.oa 0) ∧
    RegName.ofAddr 0x29#6 = some (.oa 9) ∧ RegName.ofAddr 0x30#6 = some (.ob 0) ∧ RegName.ofAddr 0x39#6 = some (.ob 9) := by
  decide

/-- Idle and busy states, values with bit 2 set and clear, and an address that is none of the writable ones. -/
theorem witness_HostAccessEffects :
    State.reset.status.busy = false ∧ (inFlight 1#64 0#64 (root 0#64)).status.busy = true ∧
    (4#64 : Word).getLsbD 2 = true ∧ (3#64 : Word).getLsbD 2 = false ∧
    RegName.ofAddr 0x04#6 ≠ some .cmd ∧ RegName.ofAddr 0x04#6 ≠ some .status ∧ RegName.ofAddr 0x04#6 ≠ some .nlen ∧
    ∀ k : Fin 10, RegName.ofAddr 0x04#6 ≠ some (.is k) := by decide

theorem witness_OperandWriteReadsBack : ∃ j k : Fin 10, j ≠ k := ⟨0, 9, by decide⟩

theorem witness_BusyReads :
    (inFlight 1#64 0#64 (root 0#64)).status.busy = true ∧ (3#32 : BitVec 32).toNat < Config.maxN ∧
      RegName.ofAddr 0x3F#6 = none :=
  ⟨rfl, lt_of_lt_of_le (show (3#32 : BitVec 32).toNat < 4 by decide) Config.four_le_maxN, by decide⟩

theorem witness_IdleReads : State.reset.status.busy = false := rfl

/-- A word below MAX_N that holds a value, and an index at or above every MAX_N. -/
theorem witness_BufReads :
    (let s := { State.reset with buf := [(3, 7#64)] }
     s.status.busy = false ∧ (3#32 : BitVec 32).toNat < Config.maxN ∧ Memory.read s.buf (3#32 : BitVec 32).toNat = some 7#64) ∧
    Config.maxN ≤ (0xFFFFFFFC#32 : BitVec 32).toNat :=
  ⟨⟨rfl, lt_of_lt_of_le (show (3#32 : BitVec 32).toNat < 4 by decide) Config.four_le_maxN, by decide⟩,
    le_trans Config.maxN_le (by decide)⟩

/-- Each event, and the absence of each. -/
theorem witness_FaultEventsRecorded :
    (∃ t, coreStep (splitOn (root allOnes)) = .next t ∧ t.status.err = .precondition) ∧
    (∃ t, coreStep (splitOn (root 0#64)) = .next t ∧ t.status.err ≠ .precondition) ∧
    State.reset.holds .cmd = true ∧ State.reset.holds .res = false ∧
    ((3#32 : BitVec 32).toNat < Config.maxN ∧ Memory.read State.reset.buf (3#32 : BitVec 32).toNat = none) ∧
    Memory.read [(3, 7#64)] (3#32 : BitVec 32).toNat ≠ none ∧ Config.maxN ≤ (0xFFFFFFFC#32 : BitVec 32).toNat ∧
    (∀ r ∈ operandsOfWord 7#64, State.reset.holds r = true) ∧ ∃ r ∈ operandsOfWord 2#64, State.reset.holds r = false :=
  ⟨split_fails (s := splitOn (root allOnes)) viol_images.2.2.2.2.2.2.2,
    (split_succeeds (s := splitOn (root 0#64)) viol_images.1).imp fun _ h => ⟨h.1, by rw [h.2]; decide⟩, rfl, rfl,
    ⟨lt_of_lt_of_le (show (3#32 : BitVec 32).toNat < 4 by decide) Config.four_le_maxN, by decide⟩, by decide,
    le_trans Config.maxN_le (by decide), by decide, .is 8, by decide, by decide⟩

/-- The step clause: a read of RES, a read of BUF word 3 and an accept of CEXH, each of which adds an entry. -/
theorem witness_FaultEventsRecorded_step :
    (∃ t, step { State.reset with prog := [.regRead 0x03#6] } = .next t ∧ t.faults = [.valuelessRead (.reg .res)]) ∧
    (∃ t, step { State.reset with prog := [.bufRead 3#32] } = .next t ∧ t.faults ≠ []) ∧
    ∃ t, step { State.reset with prog := hostCmd .cexh } = .next t ∧
      t.faults = [.valuelessAccept 2#64 [.is 8, .is 9]] := by
  refine ⟨⟨_, rfl, by decide⟩, ⟨_, rfl, ?_⟩, _, rfl, by decide⟩
  have h : (3#32 : BitVec 32).toNat < Config.maxN ∧ Memory.read State.reset.buf (3#32 : BitVec 32).toNat = none :=
    ⟨lt_of_lt_of_le (show (3#32 : BitVec 32).toNat < 4 by decide) Config.four_le_maxN, rfl⟩
  show (State.bufRead 3#32 State.reset).faults ≠ []
  rw [bufRead_faults, if_pos h]
  exact List.cons_ne_nil _ _

/-- A step with an entry in the record. -/
theorem witness_FaultRecordNeverCleared :
    let s := { State.reset with faults := [.valuelessRead (.reg .res)], sched := [.reset] }
    (after (step s)).map (fun t => t.faults) = some s.faults := by decide

theorem witness_ResetAtAnyTime : State.nextTurn { genOn (root 0#64) 4#64 with sched := [.reset] } = .reset := rfl

theorem witness_IdleMachineWaits :
    (State.nextTurn { State.reset with sched := [.core] } = .core ∧ State.reset.status.busy = false) ∧
      State.reset.nextTurn = .host ∧ State.reset.prog = [] := ⟨⟨rfl, rfl⟩, rfl, rfl⟩

/-- The invariant is met while a command is in flight, with a word in BUF. -/
theorem witness_StepKeepsInvariant :
    let s := { splitOn (root 0#64) with buf := [(3, 7#64)] }
    s.inv = true ∧ ∃ t, step s = .next t := by
  refine ⟨?_, _, rfl⟩
  have h : (3 : Nat) < Config.maxN := lt_of_lt_of_le (by decide) Config.four_le_maxN
  simp only [State.inv, State.bufWf, Memory.below, List.all_cons, List.all_nil, h, decide_true, Bool.and_true]
  decide

/-- A completion step that changes a result, and a reset that does. -/
theorem witness_ResultsChangeOnlyAtCompletion :
    (∃ t, step (inFlight 2#64 0#64 (root 0#64)) = .next t ∧ t.res ≠ (inFlight 2#64 0#64 (root 0#64)).res) ∧
    ∃ t, step { State.reset with res := ⟨1#64, true⟩, sched := [.reset] } = .next t ∧ t.res ≠ ⟨1#64, true⟩ :=
  ⟨⟨_, rfl, by decide⟩, _, rfl, by decide⟩

theorem witness_OperandsChangeOnlyByHostWrite :
    ∃ t, step { State.reset with prog := [.regWrite 0x10#6 9#64] } = .next t ∧ t.is ≠ State.reset.is :=
  ⟨_, rfl, by decide⟩

theorem witness_LatchesChangeOnlyAtAccept :
    ∃ t, step { State.reset with prog := hostCmd .cexh } = .next t ∧ t.latch ≠ State.reset.latch ∧
      t.cmd ≠ State.reset.cmd :=
  ⟨_, rfl, by decide, by decide⟩

/-- The status clause: an accept, a completion with an error, and a reset that change it. -/
theorem witness_StatusChangeOnlyAtAccept :
    (∃ t, step { State.reset with prog := hostCmd .cexh } = .next t ∧ t.status.busy ≠ false) ∧
    (∃ t, step (inFlight 7#64 0#64 (root 0#64)) = .next t ∧ t.status.err ≠ .none ∧ t.status.detail ≠ 0#4) ∧
    ∃ t, step { inFlight 7#64 0#64 (root 0#64) with sched := [.reset] } = .next t ∧ t.status.busy ≠ true :=
  ⟨⟨_, rfl, by decide⟩, ⟨_, rfl, by decide, by decide⟩, _, rfl, by decide⟩

end Sys2Proof.Tests
end

section
/-! SUPPORT. The rules of the host accesses by register name: what a read or a write of each register is. -/

namespace Sys2Proof.Machine

/-- The REG map finds every register at its own address (20_memory R41). -/
@[simp] theorem RegName.ofAddr_addr (r : RegName) : RegName.ofAddr r.addr = some r := by
  cases r with
  | cmd | status | nlen | res | cfg => rfl
  | is i | oa i | ob i => revert i; decide

/-! ### Reads -/

@[simp] theorem State.regRead_cmd (s : State) : s.regRead RegName.cmd.addr = s.deliver (.reg .cmd) true s.cmd := rfl

@[simp] theorem State.regRead_cfg (s : State) :
    s.regRead RegName.cfg.addr = s.deliver (.reg .cfg) true Config.cfg := rfl

@[simp] theorem State.regRead_nlen (s : State) :
    s.regRead RegName.nlen.addr = s.deliver (.reg .nlen) s.nlen.held s.nlen.val := rfl

@[simp] theorem State.regRead_res (s : State) :
    s.regRead RegName.res.addr = s.deliverResult (.reg .res) s.res.held s.res.val := rfl

@[simp] theorem State.regRead_is (s : State) (k : Fin 10) :
    s.regRead (RegName.is k).addr = s.deliver (.reg (.is k)) (s.is.get k).held (s.is.get k).val := by
  simp [State.regRead]

@[simp] theorem State.regRead_oa (s : State) (k : Fin 10) :
    s.regRead (RegName.oa k).addr = s.deliverResult (.reg (.oa k)) (s.oa.get k).held (s.oa.get k).val := by
  simp [State.regRead]

@[simp] theorem State.regRead_ob (s : State) (k : Fin 10) :
    s.regRead (RegName.ob k).addr = s.deliverResult (.reg (.ob k)) (s.ob.get k).held (s.ob.get k).val := by
  simp [State.regRead]

/-- Only while BUSY does a result location give a draw (20_memory R53). -/
theorem State.deliverResult_of_idle {s : State} (h : s.status.busy = false) (l : Loc) (held : Bool) (v : Word) :
    s.deliverResult l held v = s.deliver l held v := by
  simp [State.deliverResult, h]

/-! ### Writes -/

theorem State.regWrite_cmd_of_busy {s : State} (h : s.status.busy = true) (w : Word) :
    s.regWrite RegName.cmd.addr w = { s with status := { s.status with ovr := true } } := by
  simp [State.regWrite, h]

theorem State.regWrite_status_ovr (s : State) (v : Word) :
    (s.regWrite RegName.status.addr v).status.ovr = (s.status.ovr && !v.getLsbD 2) := by
  simp only [State.regWrite, RegName.ofAddr_addr]
  cases v.getLsbD 2 <;> simp

@[simp] theorem State.regWrite_cfg (s : State) (v : Word) : s.regWrite RegName.cfg.addr v = s := rfl

@[simp] theorem State.regWrite_nlen (s : State) (v : Word) :
    s.regWrite RegName.nlen.addr v = { s with nlen := Reg.put v } := rfl

@[simp] theorem State.regWrite_is (s : State) (k : Fin 10) (v : Word) :
    s.regWrite (RegName.is k).addr v = { s with is := s.is.set k (Reg.put v) } := by
  simp [State.regWrite]

end Sys2Proof.Machine
end

section
/-! SUPPORT. The words CFG and STATUS as numbers, from which their fields are read. -/

namespace Sys2Proof

/-- A field of a word, as a number. -/
theorem toNat_extractLsb' (w : Word) (i l : ℕ) : (w.extractLsb' i l).toNat = w.toNat / 2 ^ i % 2 ^ l := by
  rw [BitVec.extractLsb'_toNat, Nat.shiftRight_eq_div_pow]

/-- A bit of a word is known once its digit of the number is. -/
theorem getLsbD_eq_of_toNat {w : Word} {i : ℕ} {b : Bool} (h : w.toNat / 2 ^ i % 2 = b.toNat) : w.getLsbD i = b := by
  rw [← BitVec.testBit_toNat, Nat.testBit_eq_decide_div_mod_eq, h]
  cases b <;> rfl

/-- Joined bit vectors as a number: the high part counts 2^w times. -/
theorem toNat_append_eq_add {v w : ℕ} (hi : BitVec v) (lo : BitVec w) :
    (hi ++ lo).toNat = 2 ^ w * hi.toNat + lo.toNat := by
  rw [BitVec.toNat_append, Nat.shiftLeft_eq, Nat.mul_comm, ← Nat.two_pow_add_eq_or_of_lt lo.isLt]

/-! ### CFG -/

theorem Config.legalMaxN_maxN : legalMaxN Config.maxN = true := by
  have h4 : Config.maxN % 4 = 0 := by unfold Config.maxN; omega
  simp only [legalMaxN, h4, Config.four_le_maxN, Config.maxN_le, decide_true, beq_self_eq_true, Bool.and_self]

/-- CFG of this hardware (10_state R23). -/
theorem Config.cfg_eq : Config.cfg = (BitVec.ofNat 64 Config.maxN <<< 32) ||| 0x1404#64 := by
  have hflag : (BitVec.ofBool Config.finalKeyInjection).zeroExtend 64 <<< 16 = 0#64 := by decide
  have hlow : (20#64 <<< 8) ||| 4#64 = 0x1404#64 := by decide
  unfold Config.cfg
  rw [hflag, BitVec.or_zero, BitVec.or_assoc, hlow]

theorem Config.toNat_cfg : Config.cfg.toNat = 2 ^ 32 * Config.maxN + 0x1404 := by
  have hmax := Config.maxN_le
  have hshift : (BitVec.ofNat 64 Config.maxN <<< 32).toNat = 2 ^ 32 * Config.maxN := by
    rw [BitVec.toNat_shiftLeft, BitVec.toNat_ofNat, Nat.shiftLeft_eq]
    omega
  have hlow : (0x1404#64).toNat < 2 ^ 32 := by decide
  rw [Config.cfg_eq, BitVec.toNat_or, hshift, ← Nat.two_pow_add_eq_or_of_lt hlow, BitVec.toNat_ofNat]

/-- The fields of CFG (10_state R23). -/
theorem Config.cfg_fields :
    Config.cfg.extractLsb' 0 8 = 4#8 ∧ Config.cfg.extractLsb' 8 8 = 20#8 ∧ Config.cfg.getLsbD 16 = false ∧
    Config.cfg.extractLsb' 17 15 = 0#15 ∧ (Config.cfg.extractLsb' 32 32).toNat = Config.maxN := by
  have hmax := Config.maxN_le
  refine ⟨BitVec.eq_of_toNat_eq ?_, BitVec.eq_of_toNat_eq ?_, getLsbD_eq_of_toNat ?_,
      BitVec.eq_of_toNat_eq ?_, ?_⟩ <;>
    simp only [toNat_extractLsb', Config.toNat_cfg, BitVec.toNat_ofNat, Bool.toNat_false] <;>
    omega

/-! ### STATUS -/

namespace Machine

theorem ErrClass.code_le_three (e : ErrClass) : e.code.toNat ≤ 3 := by
  cases e <;> decide

/-- The fields of STATUS at their weights (10_state R18). -/
theorem Status.toNat_word (st : Status) :
    st.word.toNat = 2 ^ 8 * st.detail.toNat + 2 ^ 4 * st.err.code.toNat + 2 ^ 2 * st.ovr.toNat +
      2 * st.done.toNat + st.busy.toNat := by
  simp only [Status.word, toNat_append_eq_add, BitVec.toNat_ofBool, BitVec.toNat_ofNat]
  omega

/-- Bits 3:0 of the STATUS word: the three flags and a reserved bit (10_state R18). -/
theorem Status.word_flags (st : Status) :
    st.word.getLsbD 0 = st.busy ∧ st.word.getLsbD 1 = st.done ∧ st.word.getLsbD 2 = st.ovr ∧
      st.word.getLsbD 3 = false := by
  have hbusy := st.busy.toNat_le
  have hdone := st.done.toNat_le
  have hovr := st.ovr.toNat_le
  refine ⟨getLsbD_eq_of_toNat ?_, getLsbD_eq_of_toNat ?_, getLsbD_eq_of_toNat ?_, getLsbD_eq_of_toNat ?_⟩ <;>
    simp only [Status.toNat_word, Bool.toNat_false] <;>
    omega

/-- ERR and DETAIL in the STATUS word (10_state R21, R22). -/
theorem Status.word_fields (st : Status) :
    st.word.extractLsb' 4 4 = st.err.code ∧ st.word.extractLsb' 8 4 = st.detail := by
  have hbusy := st.busy.toNat_le
  have hdone := st.done.toNat_le
  have hovr := st.ovr.toNat_le
  constructor <;>
    refine BitVec.eq_of_toNat_eq ?_ <;>
    rw [toNat_extractLsb', Status.toNat_word] <;>
    omega

/-- Bits 63:12 of the STATUS word are reserved: the word is below 2^12. -/
theorem Status.word_lt (st : Status) : st.word.toNat < 2 ^ 12 := by
  have hbusy := st.busy.toNat_le
  have hdone := st.done.toNat_le
  have hovr := st.ovr.toNat_le
  rw [Status.toNat_word]
  omega

end Machine
end Sys2Proof
end

section
/-! SUPPORT. What every completion, and so every step, leaves unchanged. -/

namespace Sys2Proof.Machine

/-- `t` is a completion of the command in flight in `s` (20_memory R52): BUSY 0 and DONE 1, and only the results, ERR,
DETAIL and the record are free. -/
structure State.CompletesTo (s t : State) : Prop where
  cmd : t.cmd = s.cmd
  nlen : t.nlen = s.nlen
  is : t.is = s.is
  latch : t.latch = s.latch
  busy : t.status.busy = false
  done : t.status.done = true
  ovr : t.status.ovr = s.status.ovr
  prog : t.prog = s.prog
  sched : t.sched = s.sched
  rdata : t.rdata = s.rdata
  draws : t.draws = s.draws

theorem State.completesTo_raise (e : CmdError) (s : State) : s.CompletesTo (s.raise e) := by
  constructor <;> rfl

/-- Writing results and completing is a completion. -/
theorem State.completesTo_complete (s : State) (oa ob : Bank Reg) (res : Reg) (buf : Memory) :
    s.CompletesTo (State.complete { s with oa := oa, ob := ob, res := res, buf := buf }) := by
  constructor <;> rfl

theorem exec_completesTo {i : Instr} {s t : State} (h : exec i s = .next t) : s.CompletesTo t := by
  cases i with
  | mix | cexh | check => cases h; exact s.completesTo_complete _ _ _ _
  | cshr =>
    rcases execCshr_cases h with ⟨-, rfl⟩ | ⟨-, rfl⟩
    · exact s.completesTo_raise _
    · exact s.completesTo_complete _ _ _ _
  | gen =>
    rcases execGen_cases h with ⟨-, rfl⟩ | ⟨-, -, rfl⟩ | ⟨-, -, rfl⟩
    · exact s.completesTo_raise _
    · exact s.completesTo_raise _
    · exact s.completesTo_complete _ _ _ _
  | split =>
    rcases execSplit_cases h with ⟨-, rfl⟩ | ⟨-, rfl⟩
    · exact s.completesTo_raise _
    · exact s.completesTo_complete _ _ _ _

/-- The core's turn while BUSY is a completion, whatever the command word. -/
theorem coreStep_completesTo {s t : State} (hb : s.status.busy = true) (h : coreStep s = .next t) :
    s.CompletesTo t := by
  rcases coreStep_cases h with ⟨hi, -⟩ | ⟨-, i, -, h⟩ | ⟨-, c, -, rfl⟩
  · simp [hi] at hb
  · exact exec_completesTo h
  · exact s.completesTo_raise _

/-- What a step does to the core: a reset, a completion, a host write, or nothing but to the model's own fields. -/
theorem step_effects {s t : State} (h : step s = .next t) :
    (s.nextTurn = .reset ∧ t = s.popTurn.resetEvent) ∨
    (s.nextTurn = .core ∧ s.status.busy = true ∧ s.popTurn.CompletesTo t) ∨
    (s.nextTurn = .host ∧ ∃ a v p,
      (s.prog = .regWrite a v :: p ∨ (s.prog = .regWriteLast a :: p ∧ v = s.rdata)) ∧
        t = State.regWrite a v { s.popTurn with prog := p }) ∨
    ∃ p v fs d, t = { s.popTurn with prog := p, rdata := v, faults := fs, draws := d } := by
  rcases step_cases h with ⟨hn, rfl⟩ | ⟨hn, hc⟩ | ⟨hn, rfl⟩
  · rcases hostStep_cases s.popTurn with ⟨-, e⟩ | ⟨a, v, p, hp, e⟩ | ⟨p, v, fs, d, e, -⟩
    · exact .inr (.inr (.inr ⟨_, _, _, _, e⟩))
    · exact .inr (.inr (.inl ⟨hn, a, v, p, hp, e⟩))
    · exact .inr (.inr (.inr ⟨p, v, fs, d, e⟩))
  · cases hb : s.status.busy with
    | true => exact .inr (.inl ⟨hn, rfl, coreStep_completesTo hb hc⟩)
    | false =>
      rcases coreStep_cases hc with ⟨-, rfl⟩ | ⟨hb', -⟩ | ⟨hb', -⟩
      · exact .inr (.inr (.inr ⟨_, _, _, _, rfl⟩))
      · simp [hb] at hb'
      · simp [hb] at hb'
  · exact .inl ⟨hn, rfl⟩

end Sys2Proof.Machine
end

section
/-! SUPPORT. Which results each command leaves, and that a command does not see IS and NLEN. -/

namespace Sys2Proof.Machine

/-- The items outside MIX's four. -/
theorem Bank.get_of_four_le {α : Type} {k : Fin 10} (hk : 4 ≤ k.val) (b : Bank α) (x0 x1 x2 x3 : α) :
    Bank.get { b with w0 := x0, w1 := x1, w2 := x2, w3 := x3 } k = b.get k := by
  match k, hk with
  | 4, _ | 5, _ | 6, _ | 7, _ | 8, _ | 9, _ => rfl

/-- The items outside CSHR's two. -/
theorem Bank.get_of_le_seven {α : Type} {k : Fin 10} (hk : k.val ≤ 7) (b : Bank α) (x8 x9 : α) :
    Bank.get { b with w8 := x8, w9 := x9 } k = b.get k := by
  match k, hk with
  | 0, _ | 1, _ | 2, _ | 3, _ | 4, _ | 5, _ | 6, _ | 7, _ => rfl

/-- GEN's values fill no BUF word from n on. -/
theorem Memory.read_writeList_genValues {n : Word} {k : ℕ} (hk : n.toNat ≤ k) (m : Memory) (tr : Triple) :
    Memory.read (Memory.writeList m 0 (genValues tr n)) k = Memory.read m k := by
  have hlen : (genValues tr n).length = 4 * (n.toNat / 4) := length_genValuesFrom tr 0 _
  exact Memory.read_writeList_outside (.inr (by omega))

/-- IS and NLEN are operands of the accept alone: a command computes from the latches (10_state R26). -/
theorem exec_of_operands {i : Instr} {s t : State} (h : exec i s = .next t) (n : Reg) (b : Bank Reg) :
    exec i { s with nlen := n, is := b } = .next { t with nlen := n, is := b } := by
  cases i with
  | mix | cexh | check => cases h; rfl
  | cshr | gen | split =>
    cases h
    simp only [exec, execCshr, execGen, execSplit]
    split <;> rfl

end Sys2Proof.Machine
end

section
/-! SUPPORT. What a host write keeps: OVR, the results, the operands, the command machine. -/

namespace Sys2Proof.Machine

/-- A host write clears OVR only as a STATUS write with bit 2 = 1 (10_state R20). -/
theorem regWrite_keeps_ovr (a : BitVec 6) (v : Word) (s : State) (ho : s.status.ovr = true) :
    (s.regWrite a v).status.ovr = true ∨ (a = RegName.status.addr ∧ v.getLsbD 2 = true) := by
  rcases regWrite_cases a v s with
    ⟨-, -, e⟩ | ⟨-, -, e⟩ | ⟨ha, hv, -⟩ | ⟨-, e⟩ | ⟨i, -, e⟩ | e
  case inr.inr.inl => exact .inr ⟨(RegName.ofAddr_eq_some _ _ ha).symm, hv⟩
  all_goals exact .inl (by simp [e, ho])

/-- A host write writes no result (20_memory R43). -/
theorem regWrite_results (a : BitVec 6) (v : Word) (s : State) :
    (s.regWrite a v).oa = s.oa ∧ (s.regWrite a v).ob = s.ob ∧ (s.regWrite a v).res = s.res ∧
      (s.regWrite a v).buf = s.buf := by
  rcases regWrite_cases a v s with
    ⟨-, -, e⟩ | ⟨-, -, e⟩ | ⟨-, -, e⟩ | ⟨-, e⟩ | ⟨i, -, e⟩ | e <;> simp [e]

/-- A host write changes IS and NLEN only at an address of theirs (10_state R11, R12). -/
theorem regWrite_operands (a : BitVec 6) (v : Word) (s : State) :
    ((s.regWrite a v).is = s.is ∧ (s.regWrite a v).nlen = s.nlen) ∨
      RegName.ofAddr a = some .nlen ∨ ∃ k, RegName.ofAddr a = some (.is k) := by
  rcases regWrite_cases a v s with
    ⟨-, -, e⟩ | ⟨-, -, e⟩ | ⟨-, -, e⟩ | ⟨ha, -⟩ | ⟨i, ha, -⟩ | e
  case inr.inr.inr.inl => exact .inr (.inl ha)
  case inr.inr.inr.inr.inl => exact .inr (.inr ⟨i, ha⟩)
  all_goals exact .inl (by simp [e])

/-- `t` stands where `s` does in the run of commands: the same CMD, latches and STATUS but for OVR. -/
structure State.SameCommand (s t : State) : Prop where
  latch : t.latch = s.latch
  cmd : t.cmd = s.cmd
  busy : t.status.busy = s.status.busy
  done : t.status.done = s.status.done
  err : t.status.err = s.status.err
  detail : t.status.detail = s.status.detail

/-- A host write moves the command machine only by an accept (20_memory R50). -/
theorem regWrite_sameCommand (a : BitVec 6) (v : Word) (s : State) :
    s.SameCommand (s.regWrite a v) ∨
      (a = RegName.cmd.addr ∧ s.status.busy = false ∧ s.regWrite a v = s.accept v) := by
  rcases regWrite_cases a v s with
    ⟨-, -, e⟩ | ⟨ha, hb, e⟩ | ⟨-, -, e⟩ | ⟨-, e⟩ | ⟨i, -, e⟩ | e
  case inr.inl => exact .inr ⟨(RegName.ofAddr_eq_some _ _ ha).symm, hb, e⟩
  all_goals exact .inl (by rw [e]; constructor <;> rfl)

/-- A step moves the command machine only by a reset, a completion or an accept. -/
theorem step_sameCommand {s t : State} (h : step s = .next t) :
    s.nextTurn = .reset ∨ (s.nextTurn = .core ∧ s.status.busy = true ∧ s.popTurn.CompletesTo t) ∨
      Claims.Accepts s t ∨ s.SameCommand t := by
  rcases step_effects h with ⟨hn, -⟩ | hc | ⟨hn, a, v, p, hp, rfl⟩ | ⟨p, v, fs, d, rfl⟩
  · exact .inl hn
  · exact .inr (.inl hc)
  · rcases regWrite_sameCommand a v { s.popTurn with prog := p } with hs | ⟨rfl, hb, e⟩
    · exact .inr (.inr (.inr ⟨hs.latch, hs.cmd, hs.busy, hs.done, hs.err, hs.detail⟩))
    · rw [e]
      exact .inr (.inr (.inl ⟨hn, hb, ⟨p, hp⟩, rfl, rfl⟩))
  · exact .inr (.inr (.inr ⟨rfl, rfl, rfl, rfl, rfl, rfl⟩))

end Sys2Proof.Machine
end

section
/-! SUPPORT. What holds a value after reset. -/

namespace Sys2Proof.Machine

/-- After reset no register of a bank holds a value (10_state R28). -/
@[simp] theorem Bank.get_resetRegs (i : Fin 10) : Bank.resetRegs.get i = Reg.reset := by
  fin_cases i <;> rfl

/-- After reset exactly CMD, STATUS and CFG hold a value (10_state R28). -/
theorem State.holds_reset_iff (r : RegName) : State.reset.holds r = true ↔ r = .cmd ∨ r = .status ∨ r = .cfg := by
  cases r <;> simp [State.holds, State.reset, Reg.reset]

end Sys2Proof.Machine
end

section
/-! SUPPORT. The statements of 10_state, settled. -/

namespace Sys2Proof.Proofs

open Sys2Proof Sys2Proof.Machine

/-- Settles O7: CFG as a number gives its fields, and both accesses are one rule each. -/
theorem cfgDescribesBuild : Obligations.CfgDescribesBuild := by
  obtain ⟨hw, hr, hf, hz, hn⟩ := Config.cfg_fields
  refine ⟨Config.legalMaxN_maxN, Config.cfg_eq, hw, hr, hf, hz, hn, fun s v => ⟨?_, ?_⟩⟩
  · rw [State.regRead_cfg, State.deliver_rdata]
  · exact State.regWrite_cfg s v

/-- Settles O37: every command's step is a completion. -/
theorem commandFrameOperands : Obligations.CommandFrameOperands := by
  intro i s t h
  have hc := exec_completesTo h
  exact ⟨hc.cmd, hc.nlen, hc.is, hc.latch, hc.ovr, hc.prog, hc.sched, hc.rdata, hc.draws⟩

/-- Settles O38, command by command: an error writes no result, a success the command's own. -/
theorem commandFrameResults : Obligations.CommandFrameResults := by
  intro i s t h
  cases i with
  | mix =>
    cases h
    simpa using fun k hk => Bank.get_of_four_le hk s.oa _ _ _ _
  | cexh | check => cases h; simp
  | cshr =>
    rcases execCshr_cases h with ⟨-, rfl⟩ | ⟨-, rfl⟩
    · simp
    · simpa using fun k hk => Bank.get_of_le_seven hk s.oa _ _
  | gen =>
    rcases execGen_cases h with ⟨-, rfl⟩ | ⟨-, -, rfl⟩ | ⟨-, -, rfl⟩
    · simp
    · simp
    · simpa using fun k hk => Memory.read_writeList_genValues hk s.buf _
  | split =>
    rcases execSplit_cases h with ⟨-, rfl⟩ | ⟨-, rfl⟩ <;> simp

/-- Settles O42, the last clause by what the step does: short of reset only a host write can clear OVR. -/
theorem ovrProtocol : Obligations.OvrProtocol := by
  refine ⟨fun s w hb => State.regWrite_cmd_of_busy hb w, State.regWrite_status_ovr, fun s t h ho => ?_⟩
  rcases step_effects h with ⟨hn, -⟩ | ⟨-, -, hc⟩ | ⟨hn, a, v, p, hp, rfl⟩ | ⟨p, v, fs, d, rfl⟩
  · exact .inr (.inl hn)
  · exact .inl (hc.ovr.trans ho)
  · rcases regWrite_keeps_ovr a v { s.popTurn with prog := p } ho with hset | ⟨rfl, hv⟩
    · exact .inl hset
    · exact .inr (.inr ⟨hn, v, hv, p, hp⟩)
  · exact .inl ho

/-- Settles O43: the command does not see IS and NLEN, and the write is the same on both sides. -/
theorem operandWritesDuringBusyUnseen : Obligations.OperandWritesDuringBusyUnseen := by
  intro i s t r v hr h
  have hc := exec_completesTo h
  rcases hr with rfl | ⟨k, rfl⟩
  · simpa [hc.is] using exec_of_operands h (Reg.put v) s.is
  · simpa [hc.nlen, hc.is] using exec_of_operands h s.nlen (s.is.set k (Reg.put v))

/-- Settles O58: of the four effects of a step, a host write and a quiet step write no result. -/
theorem resultsChangeOnlyAtCompletion : Obligations.ResultsChangeOnlyAtCompletion := by
  intro s t h hne
  rcases step_effects h with ⟨hn, -⟩ | ⟨hn, hb, -⟩ | ⟨-, a, v, p, -, rfl⟩ | ⟨p, v, fs, d, rfl⟩
  · exact .inr hn
  · exact .inl ⟨hn, hb⟩
  · obtain ⟨hoa, hob, hres, hbuf⟩ := regWrite_results a v { s.popTurn with prog := p }
    rcases hne with hne | hne | hne | hne
    · exact absurd hoa hne
    · exact absurd hob hne
    · exact absurd hres hne
    · exact absurd hbuf hne
  · simp at hne

/-- Settles O59: a completion leaves IS and NLEN alone, and a host write changes them only at their addresses. -/
theorem operandsChangeOnlyByHostWrite : Obligations.OperandsChangeOnlyByHostWrite := by
  intro s t h hne
  rcases step_effects h with ⟨hn, -⟩ | ⟨-, -, hc⟩ | ⟨hn, a, v, p, hp, rfl⟩ | ⟨p, v, fs, d, rfl⟩
  · exact .inl hn
  · simp [hc.is, hc.nlen] at hne
  · rcases regWrite_operands a v { s.popTurn with prog := p } with ⟨his, hnlen⟩ | ha
    · exact hne.elim (absurd his) (absurd hnlen)
    · exact .inr ⟨hn, a, v, p, hp.imp_right And.left, ha⟩
  · simp at hne

/-- Settles O60: a step that is no reset, completion or accept keeps the command machine, and a completion keeps the
latches and CMD. -/
theorem latchesChangeOnlyAtAccept : Obligations.LatchesChangeOnlyAtAccept := by
  constructor
  · intro s t h hne
    rcases step_sameCommand h with hn | ⟨-, -, hc⟩ | ha | hs
    · exact .inl hn
    · simp [hc.latch, hc.cmd] at hne
    · exact .inr ha
    · simp [hs.latch, hs.cmd] at hne
  · intro s t h hne
    rcases step_sameCommand h with hn | ⟨hn, hb, hc⟩ | ha | hs
    · exact .inl hn
    · exact .inr (.inl ⟨hn, hb, hc.busy, hc.done⟩)
    · exact .inr (.inr ha)
    · simp [hs.busy, hs.done, hs.err, hs.detail] at hne

/-- Settles O6, from STATUS as a number. -/
theorem statusWordFields : Obligations.StatusWordFields := by
  refine ⟨⟨rfl, rfl, rfl, rfl⟩, fun st => ?_⟩
  obtain ⟨hbusy, hdone, hovr, hres⟩ := st.word_flags
  obtain ⟨herr, hdetail⟩ := st.word_fields
  have hhigh (b : ℕ) (hb : 12 ≤ b) : st.word.getLsbD b = false := by
    rw [← BitVec.testBit_toNat]
    exact Nat.testBit_lt_two_pow (st.word_lt.trans_le (Nat.pow_le_pow_right (by decide) hb))
  exact ⟨hbusy, hdone, hovr, hres, herr, hdetail, hhigh, herr ▸ st.err.code_le_three⟩

/-- Settles O47: the write holds the word, and a held register's read delivers it with no record. -/
theorem operandWriteReadsBack : Obligations.OperandWriteReadsBack := by
  refine fun s v => ⟨fun k => ⟨?_, ?_, fun j hj => ?_⟩, rfl, rfl⟩
  · simp
  · simp
  · rw [State.regWrite_is, Bank.get_set_other _ _ hj]

/-- Settles O49: while IDLE a read of a result is delivered as every other read is. -/
theorem idleReads : Obligations.IdleReads := by
  intro s hb
  simp [State.deliverResult_of_idle hb]

/-- Settles O53, register by register. -/
theorem resetValues : Obligations.ResetValues :=
  ⟨rfl, rfl, by decide, State.holds_reset_iff, fun _ => rfl⟩

/-- Settles O57: BUF is empty, STATUS is clear and nothing is in flight. -/
theorem resetMeetsInvariant : Obligations.ResetMeetsInvariant := by
  have hbuf : State.reset.bufWf = true := rfl
  have hstatus : State.reset.status.legal = true := by decide
  have hcmd : State.reset.cmdRunning = true := by decide
  show State.reset.inv = true
  simp [State.inv, hbuf, hstatus, hcmd]

end Sys2Proof.Proofs
end

section
/-! SUPPORT. The rules of the host accesses that depend on BUSY, on the address or on the index: draws, BUF words,
accepts, and the writes that do nothing. -/

namespace Sys2Proof.Machine

/-! ### Reads -/

/-- While BUSY a result location gives the next free draw (20_memory R53). -/
theorem State.deliverResult_of_busy {s : State} (h : s.status.busy = true) (l : Loc) (held : Bool) (v : Word) :
    s.deliverResult l held v = { s.deliver l held (Config.draw s.draws) with draws := s.draws + 1 } := by
  simp [State.deliverResult, h]

theorem State.regRead_of_reserved {a : BitVec 6} (h : RegName.ofAddr a = none) (s : State) :
    s.regRead a = { s with rdata := 0#64 } := by
  simp [State.regRead, h]

theorem State.bufRead_of_lt {i : BitVec 32} (h : i.toNat < Config.maxN) (s : State) :
    s.bufRead i = s.deliverResult (.buf i.toNat) (Memory.read s.buf i.toNat).isSome (s.bufValue i.toNat) := by
  simp [State.bufRead, h]

theorem State.bufRead_of_le {i : BitVec 32} (h : Config.maxN ≤ i.toNat) (s : State) :
    s.bufRead i = { s with rdata := 0#64 } := by
  simp [State.bufRead, Nat.not_lt.mpr h]

/-- While IDLE the word a register read returns does not depend on what earlier reads left: the word last read, the
record and the draw counter. -/
theorem regRead_rdata_of_idle {s : State} (hb : s.status.busy = false) (a : BitVec 6) (v : Word)
    (fs : List FaultEvent) (d : ℕ) :
    (State.regRead a { s with rdata := v, faults := fs, draws := d }).rdata = (s.regRead a).rdata := by
  cases h : RegName.ofAddr a with
  | none => simp [State.regRead_of_reserved h]
  | some r =>
    obtain rfl := RegName.ofAddr_eq_some _ _ h
    cases r <;> simp [State.deliverResult_of_idle, hb]

/-- While IDLE the word a BUF read returns does not depend on what earlier reads left. -/
theorem bufRead_rdata_of_idle {s : State} (hb : s.status.busy = false) (i : BitVec 32) (v : Word)
    (fs : List FaultEvent) (d : ℕ) :
    (State.bufRead i { s with rdata := v, faults := fs, draws := d }).rdata = (s.bufRead i).rdata := by
  rcases lt_or_ge i.toNat Config.maxN with hi | hi
  · simp [State.bufRead_of_lt hi, State.deliverResult_of_idle, State.bufValue, hb]
  · simp [State.bufRead_of_le hi]

/-! ### Writes -/

theorem State.regWrite_cmd_of_idle {s : State} (h : s.status.busy = false) (w : Word) :
    s.regWrite RegName.cmd.addr w = s.accept w := by
  simp [State.regWrite, h]

/-- A STATUS write clears OVR when bit 2 of the word is 1, and does nothing else (10_state R20). -/
theorem State.regWrite_status (s : State) (v : Word) :
    s.regWrite RegName.status.addr v =
      if v.getLsbD 2 then { s with status := { s.status with ovr := false } } else s := by
  simp [State.regWrite]

/-! The read-only registers and the reserved addresses (20_memory R42, R43). -/

@[simp] theorem State.regWrite_res (s : State) (v : Word) : s.regWrite RegName.res.addr v = s := rfl

@[simp] theorem State.regWrite_oa (s : State) (k : Fin 10) (v : Word) : s.regWrite (RegName.oa k).addr v = s := by
  simp [State.regWrite]

@[simp] theorem State.regWrite_ob (s : State) (k : Fin 10) (v : Word) : s.regWrite (RegName.ob k).addr v = s := by
  simp [State.regWrite]

theorem State.regWrite_of_reserved {a : BitVec 6} (h : RegName.ofAddr a = none) (s : State) (v : Word) :
    s.regWrite a v = s := by
  simp [State.regWrite, h]

/-- A write to an address that is not CMD, STATUS, NLEN or an IS register does nothing (20_memory R49). -/
theorem regWrite_eq_self {a : BitVec 6} (hcmd : RegName.ofAddr a ≠ some .cmd) (hstatus : RegName.ofAddr a ≠ some .status)
    (hnlen : RegName.ofAddr a ≠ some .nlen) (his : ∀ k, RegName.ofAddr a ≠ some (.is k)) (v : Word) (s : State) :
    s.regWrite a v = s := by
  rcases regWrite_cases a v s with ⟨h, -⟩ | ⟨h, -⟩ | ⟨h, -⟩ | ⟨h, -⟩ | ⟨k, h, -⟩ | e
  · exact absurd h hcmd
  · exact absurd h hcmd
  · exact absurd h hstatus
  · exact absurd h hnlen
  · exact absurd h (his k)
  · exact e

/-- The four reserved ranges of the REG map (20_memory R42). -/
theorem RegName.ofAddr_of_reserved : ∀ a : BitVec 6,
    ((0x05 ≤ a.toNat ∧ a.toNat ≤ 0x0F) ∨ (0x1A ≤ a.toNat ∧ a.toNat ≤ 0x1F) ∨ (0x2A ≤ a.toNat ∧ a.toNat ≤ 0x2F) ∨
      0x3A ≤ a.toNat) → RegName.ofAddr a = none := by
  decide

end Sys2Proof.Machine
end

section
/-! SUPPORT. The steps one by one: what the host's step is for each pending operation, and the core's step by BUSY and
the word in flight. -/

namespace Sys2Proof.Machine

/-! ### The host's step -/

theorem hostStep_of_nil {s : State} (h : s.prog = []) : s.hostStep = s := by
  simp [State.hostStep, h]

theorem hostStep_of_regWrite {s : State} {a : BitVec 6} {v : Word} {p : List HostOp} (h : s.prog = .regWrite a v :: p) :
    s.hostStep = State.regWrite a v { s with prog := p } := by
  simp [State.hostStep, h]

theorem hostStep_of_regRead {s : State} {a : BitVec 6} {p : List HostOp} (h : s.prog = .regRead a :: p) :
    s.hostStep = State.regRead a { s with prog := p } := by
  simp [State.hostStep, h]

theorem hostStep_of_bufRead {s : State} {i : BitVec 32} {p : List HostOp} (h : s.prog = .bufRead i :: p) :
    s.hostStep = State.bufRead i { s with prog := p } := by
  simp [State.hostStep, h]

theorem hostStep_of_regWriteLast {s : State} {a : BitVec 6} {p : List HostOp} (h : s.prog = .regWriteLast a :: p) :
    s.hostStep = State.regWrite a s.rdata { s with prog := p } := by
  simp [State.hostStep, h]

/-- While BUSY `wait` reads STATUS and stays pending (30_encoding R72). -/
theorem hostStep_of_wait_of_busy {s : State} {p : List HostOp} (h : s.prog = .wait :: p) (hb : s.status.busy = true) :
    s.hostStep = { s with rdata := s.status.word } := by
  simp [State.hostStep, h, hb]

/-- While IDLE `wait` reads STATUS for the last time. -/
theorem hostStep_of_wait_of_idle {s : State} {p : List HostOp} (h : s.prog = .wait :: p) (hb : s.status.busy = false) :
    s.hostStep = { s with prog := p, rdata := s.status.word } := by
  simp [State.hostStep, h, hb]

/-- A host step writes no BUF word (20_memory R45). -/
@[simp] theorem hostStep_buf (s : State) : s.hostStep.buf = s.buf := by
  rcases hostStep_cases s with ⟨-, e⟩ | ⟨a, v, p, -, e⟩ | ⟨p, v, fs, d, e, -⟩
  · rw [e]
  · obtain ⟨-, -, -, hbuf⟩ := regWrite_results a v { s with prog := p }
    rw [e, hbuf]
  · rw [e]

/-! ### The core's step -/

theorem coreStep_of_idle {s : State} (h : s.status.busy = false) : coreStep s = .next s := by
  simp [coreStep, h]

theorem coreStep_of_decode {s : State} {i : Instr} (hb : s.status.busy = true) (hd : decode s.latch.word = .ok i) :
    coreStep s = exec i s := by
  simp [coreStep, State.fetched, hb, hd]

/-- Every command answers a next state from every state (20_memory R52). -/
theorem exec_total (i : Instr) (s : State) : ∃ t, exec i s = .next t := by
  cases i <;> exact ⟨_, rfl⟩

/-! ### The word that `withFetchWord` places -/

theorem decode_encode (i : Instr) : decode (encode i) = .ok i := by
  cases i <;> rfl

theorem tableWord_toNat (w : Word) : tableWord 64 w.toNat = w := by
  rw [tableWord, Nat.mod_eq_of_lt w.isLt, BitVec.ofNat_toNat, BitVec.setWidth_eq]

end Sys2Proof.Machine
end

section
/-! SUPPORT. The invariant of BUF, STATUS and CMD: each kind of step keeps it. -/

namespace Sys2Proof.Machine

theorem State.inv_iff (s : State) :
    s.inv = true ↔ s.bufWf = true ∧ s.status.legal = true ∧ s.cmdRunning = true := by
  simp [State.inv, and_assoc]

/-! ### The cause bits of each error class (10_state R22) -/

theorem argCauses_detailLegal {m : ℕ} {n : Word} (h : argCauses m n ≠ 0#4) :
    ErrClass.invalidArg.detailLegal (argCauses m n) = true := by
  have hbit : ∀ b0 b1 b2 : Bool, (bits4 b0 b1 b2 false).getLsbD 3 = false := by decide
  have hthree : (argCauses m n).getLsbD 3 = false := hbit _ _ _
  rw [ErrClass.detailLegal, hthree]
  simpa using h

theorem viol_detailLegal {g : Image} (h : viol g ≠ 0#4) : ErrClass.precondition.detailLegal (viol g) = true := by
  simp [ErrClass.detailLegal, h]

/-- The decoder never answers an error without a cause (30_encoding R69). -/
theorem decode_error_detailLegal {w : Word} {c : IllegalCauses} (h : decode w = .error c) :
    ErrClass.illegal.detailLegal c.detail = true := by
  unfold decode at h
  cases ho : decodeOpcode (CmdFields.ofWord w).opc with
  | some i =>
    by_cases hr : (CmdFields.ofWord w).rsv = 0#56
    · simp [ho, hr] at h
    · simp only [ho, hr, if_false, Except.error.injEq] at h
      subst h; rfl
  | none =>
    simp only [ho, Except.error.injEq] at h
    subst h
    cases (CmdFields.ofWord w).rsvLegal <;> rfl

/-- A command ends with cause bits that fit its error class, and never with ILLEGAL (60_exceptions R180). -/
theorem exec_detailLegal {i : Instr} {s t : State} (h : exec i s = .next t) :
    t.status.err.detailLegal t.status.detail = true ∧ t.status.err ≠ .illegal := by
  cases i with
  | mix | cexh | check => cases h; exact ⟨rfl, nofun⟩
  | cshr =>
    rcases execCshr_cases h with ⟨-, rfl⟩ | ⟨-, rfl⟩
    · exact ⟨rfl, nofun⟩
    · exact ⟨rfl, nofun⟩
  | gen =>
    rcases execGen_cases h with ⟨ha, rfl⟩ | ⟨-, hv, rfl⟩ | ⟨-, -, rfl⟩
    · exact ⟨argCauses_detailLegal ha, nofun⟩
    · exact ⟨viol_detailLegal hv, nofun⟩
    · exact ⟨rfl, nofun⟩
  | split =>
    rcases execSplit_cases h with ⟨hv, rfl⟩ | ⟨-, rfl⟩
    · exact ⟨viol_detailLegal hv, nofun⟩
    · exact ⟨rfl, nofun⟩

/-- MIX, CEXH and CHECK cannot fail (40_blockmix R107, 41_pathcursor R123, R126). -/
theorem exec_err_of_cannot_fail {i : Instr} {s t : State} (hi : i = .mix ∨ i = .cexh ∨ i = .check)
    (h : exec i s = .next t) : t.status.err = .none := by
  rcases hi with rfl | rfl | rfl <;> cases h <;> rfl

/-! ### BUF -/

/-- GEN's words, whose number its argument check bounds, fill existing BUF words (42_generate R140, R147). -/
theorem State.bufWf_writeBuf_genValues {s : State} {n : Word} (hn : argCauses Config.maxN n = 0#4)
    (h : s.bufWf = true) (tr : Triple) : (s.writeBuf (genValues tr n)).bufWf = true := by
  obtain ⟨-, -, hle⟩ := (argCauses_eq_zero_iff _ _).mp hn
  have hlen : (genValues tr n).length = 4 * (n.toNat / 4) := length_genValuesFrom tr 0 _
  simp only [State.bufWf, Bool.and_eq_true] at h ⊢
  obtain ⟨hwf, hbelow⟩ := h
  exact ⟨Memory.wf_writeList 0 _ hwf, Memory.below_writeList 0 _ (by omega) hbelow⟩

theorem exec_keeps_bufWf {i : Instr} {s t : State} (hs : s.bufWf = true) (h : exec i s = .next t) :
    t.bufWf = true := by
  cases i with
  | mix | cexh | check => cases h; exact hs
  | cshr => rcases execCshr_cases h with ⟨-, rfl⟩ | ⟨-, rfl⟩ <;> exact hs
  | gen =>
    rcases execGen_cases h with ⟨-, rfl⟩ | ⟨-, -, rfl⟩ | ⟨ha, -, rfl⟩
    · exact hs
    · exact hs
    · exact State.bufWf_writeBuf_genValues ha hs _
  | split => rcases execSplit_cases h with ⟨-, rfl⟩ | ⟨-, rfl⟩ <;> exact hs

/-! ### The steps -/

/-- After a completion nothing is in flight, so only BUF and the cause bits are left to show. -/
theorem State.CompletesTo.inv {s t : State} (hc : s.CompletesTo t) (hbuf : t.bufWf = true)
    (hd : t.status.err.detailLegal t.status.detail = true) : t.inv = true := by
  simp [State.inv, Status.legal, State.cmdRunning, hc.busy, hbuf, hd]

theorem coreStep_keeps_inv {s t : State} (hi : s.inv = true) (h : coreStep s = .next t) : t.inv = true := by
  obtain ⟨hbuf, -, -⟩ := s.inv_iff.mp hi
  rcases coreStep_cases h with ⟨-, rfl⟩ | ⟨-, i, -, he⟩ | ⟨-, c, hd, rfl⟩
  · exact hi
  · exact (exec_completesTo he).inv (exec_keeps_bufWf hbuf he) (exec_detailLegal he).1
  · exact (s.completesTo_raise _).inv hbuf (decode_error_detailLegal hd)

/-- An accept latches the word that CMD then reads, and clears DONE, ERR and DETAIL (20_memory R50). -/
theorem State.inv_accept {s : State} (hbuf : s.bufWf = true) (w : Word) : (s.accept w).inv = true := by
  refine (State.inv_iff _).mpr ⟨hbuf, rfl, ?_⟩
  simp [State.cmdRunning]

/-- OVR is no part of the invariant: a host write short of an accept keeps all that is. -/
theorem regWrite_keeps_inv {s : State} (hi : s.inv = true) (a : BitVec 6) (v : Word) :
    (s.regWrite a v).inv = true := by
  obtain ⟨hbuf, hstatus, hcmd⟩ := s.inv_iff.mp hi
  rcases regWrite_sameCommand a v s with hs | ⟨-, -, e⟩
  · obtain ⟨-, -, -, hb⟩ := regWrite_results a v s
    refine (State.inv_iff _).mpr ⟨?_, ?_, ?_⟩
    · rwa [State.bufWf, hb]
    · rwa [Status.legal, hs.busy, hs.done, hs.err, hs.detail]
    · rwa [State.cmdRunning, hs.busy, hs.cmd, hs.latch]
  · rw [e]
    exact State.inv_accept hbuf v

theorem hostStep_keeps_inv {s : State} (hi : s.inv = true) : s.hostStep.inv = true := by
  rcases hostStep_cases s with ⟨-, e⟩ | ⟨a, v, p, -, e⟩ | ⟨p, v, fs, d, e, -⟩ <;> rw [e]
  · exact hi
  · exact regWrite_keeps_inv (s := { s with prog := p }) hi a v
  · exact hi

end Sys2Proof.Machine
end

section
/-! SUPPORT. The statements of 20_memory, settled. -/

namespace Sys2Proof.Proofs

open Sys2Proof Sys2Proof.Machine

/-- Settles O56, by whose turn it is. -/
theorem stepKeepsInvariant : Obligations.StepKeepsInvariant := by
  intro s t hi h
  have hpop : s.popTurn.inv = true := hi
  rcases step_cases h with ⟨-, rfl⟩ | ⟨-, hc⟩ | ⟨-, rfl⟩
  · exact hostStep_keeps_inv hpop
  · exact coreStep_keeps_inv hpop hc
  · exact resetMeetsInvariant

/-- Settles O35: a command's step is a completion, and its error class carries fitting cause bits. -/
theorem commandsComplete : Obligations.CommandsComplete := by
  intro i s
  obtain ⟨t, h⟩ := exec_total i s
  have hc := exec_completesTo h
  obtain ⟨hd, hill⟩ := exec_detailLegal h
  exact ⟨t, h, hc.busy, hc.done, hc.ovr, hd, hill, fun hi => exec_err_of_cannot_fail hi h⟩

/-- Settles O46: a read touches only the model's own fields, which no value read while IDLE depends on, and each write
is its own rule. -/
theorem hostAccessEffects : Obligations.HostAccessEffects := by
  refine ⟨fun s a => ?_, fun s i => ?_, fun s a hb => ?_, fun s i hb => ?_, fun s v =>
    ⟨fun k => s.regWrite_is k v, s.regWrite_nlen v, fun hb => State.regWrite_cmd_of_idle hb v,
      fun hb => State.regWrite_cmd_of_busy hb v, fun hv => ?_, fun hv => ?_, fun a hcmd hstatus hnlen his =>
      regWrite_eq_self hcmd hstatus hnlen his v s⟩⟩
  · obtain ⟨u, fs, d, e, -⟩ := regRead_cases a s
    rw [e]
  · obtain ⟨u, fs, d, e, -⟩ := bufRead_cases i s
    rw [e]
  · obtain ⟨u, fs, d, e, -⟩ := regRead_cases a s
    rw [← regRead_rdata_of_idle hb a u fs d, e]
  · obtain ⟨u, fs, d, e, -⟩ := bufRead_cases i s
    rw [← bufRead_rdata_of_idle hb i u fs d, e]
  · rw [State.regWrite_status, if_pos hv]
  · rw [State.regWrite_status, hv, if_neg Bool.false_ne_true]

/-- Settles O40: the rule of the turn, then the rule of the word in flight or of the pending operation. -/
theorem stepRunsDecodedCommand : Obligations.StepRunsDecodedCommand := by
  refine ⟨fun s i hn hb hd => ?_, fun s i => ?_, fun s p hn => ?_⟩
  · rw [step_core hn]
    exact coreStep_of_decode (s := s.popTurn) hb hd
  · have hplaced : s.withFetchWord 64 (encode i).toNat = { s.accept (encode i) with sched := .core :: s.sched } := by
      rw [State.withFetchWord, tableWord_toNat]
    rw [hplaced, step_core rfl]
    exact coreStep_of_decode rfl (decode_encode i)
  · rw [step_host hn]
    exact ⟨fun a v hp => congrArg _ (hostStep_of_regWrite (s := s.popTurn) hp),
      fun a hp => congrArg _ (hostStep_of_regRead (s := s.popTurn) hp),
      fun i hp => congrArg _ (hostStep_of_bufRead (s := s.popTurn) hp),
      fun a hp => congrArg _ (hostStep_of_regWriteLast (s := s.popTurn) hp),
      fun hp => ⟨fun hb => congrArg _ (hostStep_of_wait_of_busy (s := s.popTurn) hp hb),
        fun hb => congrArg _ (hostStep_of_wait_of_idle (s := s.popTurn) hp hb)⟩⟩

/-- Settles O41: the write is an accept, and only its record is left open. -/
theorem acceptEffect : Obligations.AcceptEffect :=
  fun s w hb => ⟨s.acceptRecord w, State.regWrite_cmd_of_idle hb w⟩

/-- Settles O45: a reserved address names no register, and a write to a read-only one does nothing. -/
theorem reservedAndReadOnly : Obligations.ReservedAndReadOnly := by
  refine ⟨fun s a ha => ?_, fun s v => ⟨s.regWrite_res v, s.regWrite_cfg v, fun k =>
    ⟨s.regWrite_oa k v, s.regWrite_ob k v⟩⟩⟩
  have hnone := RegName.ofAddr_of_reserved a ha
  exact ⟨State.regRead_of_reserved hnone s, State.regWrite_of_reserved hnone s⟩

/-- Settles O48: while BUSY a result location delivers a draw, and every other register its value. -/
theorem busyReads : Obligations.BusyReads := by
  refine fun s hb => ⟨fun r hr => ?_, fun i hi => ?_, rfl, rfl, rfl, rfl, fun k => ?_, fun a ha => ?_⟩
  · rcases hr with rfl | ⟨k, rfl⟩ | ⟨k, rfl⟩ <;> simp [State.deliverResult_of_busy hb]
  · simp [State.bufRead_of_lt hi, State.deliverResult_of_busy hb]
  · simp
  · rw [State.regRead_of_reserved ha]

/-- Settles O50: while IDLE a BUF word is delivered as it is stored, and no host access writes BUF. -/
theorem bufReads : Obligations.BufReads := by
  refine ⟨fun s i v hb hi hv => ?_, fun s i hi => State.bufRead_of_le hi s, hostStep_buf⟩
  have hvalue : s.bufValue i.toNat = v := by simp [State.bufValue, hv]
  rw [State.bufRead_of_lt hi, State.deliverResult_of_idle hb, State.deliver_rdata, hvalue]

/-- Settles O55: an agent with nothing to do leaves the state, and after reset that is the host, at every step. -/
theorem idleMachineWaits : Obligations.IdleMachineWaits := by
  refine ⟨fun s hn hb => ?_, fun s hn hp => ?_, fun k => ?_⟩
  · rw [step_core hn]
    exact coreStep_of_idle (s := s.popTurn) hb
  · rw [step_host hn]
    exact congrArg _ (hostStep_of_nil (s := s.popTurn) hp)
  · induction k with
    | zero => rfl
    | succ k ih => exact ih

end Sys2Proof.Proofs
end

section
/-! SUPPORT. The decoder by its two fields: a command word is legal exactly when it is the word of a command, and each
cause of ILLEGAL is one field's failure. -/

namespace Sys2Proof

/-! ### The fields of a command word (30_encoding R67) -/

theorem CmdFields.toNat_opc (w : Word) : (CmdFields.ofWord w).opc.toNat = w.toNat % 256 := by
  rw [CmdFields.ofWord, toNat_extractLsb']
  omega

theorem CmdFields.toNat_rsv (w : Word) : (CmdFields.ofWord w).rsv.toNat = w.toNat / 256 := by
  rw [CmdFields.ofWord, toNat_extractLsb']
  omega

/-- A command word is its two fields joined. -/
theorem CmdFields.toWord_ofWord (w : Word) : (CmdFields.ofWord w).toWord = w := by
  apply BitVec.eq_of_toNat_eq
  rw [CmdFields.toWord, toNat_append_eq_add, CmdFields.toNat_opc, CmdFields.toNat_rsv]
  omega

theorem CmdFields.rsv_eq_zero_iff (w : Word) : (CmdFields.ofWord w).rsv = 0#56 ↔ Claims.RsvZero w := by
  rw [Claims.RsvZero, ← CmdFields.toNat_rsv, ← BitVec.toNat_inj, BitVec.toNat_zero]

/-! ### The opcode map (30_encoding R68) -/

theorem decodeOpcode_eq_some_iff (opc : BitVec 8) (i : Instr) : decodeOpcode opc = some i ↔ opc = i.opcode := by
  constructor
  · intro h
    unfold decodeOpcode at h
    split_ifs at h <;> cases h <;> assumption
  · rintro rfl
    cases i <;> rfl

/-- The opcodes of the map are 0x01 to 0x06 (30_encoding R69). -/
theorem decodeOpcode_isSome_iff :
    ∀ opc : BitVec 8, (decodeOpcode opc).isSome = true ↔ 1 ≤ opc.toNat ∧ opc.toNat ≤ 6 := by
  decide

/-! ### The decoder (30_encoding R69, R70) -/

theorem decode_of_known {w : Word} {i : Instr} (h : decodeOpcode (CmdFields.ofWord w).opc = some i) :
    decode w = if (CmdFields.ofWord w).rsv = 0#56 then .ok i else .error ⟨false, true⟩ := by
  simp only [decode, h]

theorem decode_of_unknown {w : Word} (h : decodeOpcode (CmdFields.ofWord w).opc = none) :
    decode w = .error ⟨true, !(CmdFields.ofWord w).rsvLegal⟩ := by
  simp only [decode, h]

/-- The word of a command has its opcode in OPC, and RSV is 0. -/
theorem encode_eq_toWord (i : Instr) : encode i = (CmdFields.mk i.opcode 0#56).toWord := by
  cases i <;> rfl

/-- The converse of `decode_encode`: both fields of a word that decodes are those of the command's word. -/
theorem eq_encode_of_decode {w : Word} {i : Instr} (h : decode w = .ok i) : w = encode i := by
  have hf : CmdFields.ofWord w = ⟨i.opcode, 0#56⟩ := by
    cases ho : decodeOpcode (CmdFields.ofWord w).opc with
    | none => simp [decode_of_unknown ho] at h
    | some j =>
      rw [decode_of_known ho] at h
      split_ifs at h with hr
      cases h
      exact congrArg₂ CmdFields.mk ((decodeOpcode_eq_some_iff _ _).mp ho) hr
  rw [encode_eq_toWord, ← hf, CmdFields.toWord_ofWord]

end Sys2Proof
end

section
/-! SUPPORT. The 128-bit fields of a state image as numbers, bits and population counts. -/

namespace Sys2Proof.Machine

/-! ### The codec of a field (30_encoding R61, R66) -/

/-- The two words of a 128-bit field, high word first. -/
theorem cat128_div_mod (v : BitVec 128) :
    cat128 (BitVec.ofNat 64 (v.toNat / 2 ^ 64)) (BitVec.ofNat 64 (v.toNat % 2 ^ 64)) = v := by
  apply BitVec.eq_of_toNat_eq
  rw [toNat_cat128, BitVec.toNat_ofNat, BitVec.toNat_ofNat]
  omega

theorem div_cat128 (hi lo : Word) : BitVec.ofNat 64 ((cat128 hi lo).toNat / 2 ^ 64) = hi := by
  apply BitVec.eq_of_toNat_eq
  rw [toNat_cat128, BitVec.toNat_ofNat]
  omega

theorem mod_cat128 (hi lo : Word) : BitVec.ofNat 64 ((cat128 hi lo).toNat % 2 ^ 64) = lo := by
  apply BitVec.eq_of_toNat_eq
  rw [toNat_cat128, BitVec.toNat_ofNat]
  omega

/-- The bitwise or of two fields, word by word. -/
theorem cat128_or (a b c d : Word) : cat128 (a ||| c) (b ||| d) = cat128 a b ||| cat128 c d := by
  refine BitVec.eq_of_getLsbD_eq fun i _ => ?_
  rw [BitVec.getLsbD_or, getLsbD_cat128, getLsbD_cat128, getLsbD_cat128]
  split <;> exact BitVec.getLsbD_or ..

/-! ### The population count (00_scope section 4) -/

theorem popcountBelow_eq_card {w : ℕ} (v : BitVec w) (k : ℕ) :
    popcountBelow v k = ((Finset.range k).filter fun i => v.getLsbD i = true).card := by
  induction k with
  | zero => rfl
  | succ k ih =>
    rw [popcountBelow, ih, Finset.range_add_one, Finset.filter_insert]
    cases v.getLsbD k <;> simp

/-- More than one bit is set exactly when two are. -/
theorem one_lt_popcount_iff {w : ℕ} (v : BitVec w) :
    1 < popcount v ↔ ∃ i j, i < j ∧ v.getLsbD i = true ∧ v.getLsbD j = true := by
  rw [popcount, popcountBelow_eq_card, Finset.one_lt_card]
  simp only [Finset.mem_filter, Finset.mem_range]
  constructor
  · rintro ⟨i, ⟨-, hi⟩, j, ⟨-, hj⟩, hne⟩
    rcases lt_or_gt_of_ne hne with h | h
    · exact ⟨i, j, h, hi, hj⟩
    · exact ⟨j, i, h, hj, hi⟩
  · rintro ⟨i, j, h, hi, hj⟩
    exact ⟨i, ⟨BitVec.lt_of_getLsbD hi, hi⟩, j, ⟨BitVec.lt_of_getLsbD hj, hj⟩, h.ne⟩

theorem popcount_eq_zero_iff {w : ℕ} (v : BitVec w) : popcount v = 0 ↔ v = 0#w := by
  rw [popcount, popcountBelow_eq_card, Finset.card_eq_zero, Finset.filter_eq_empty_iff]
  constructor
  · intro h
    refine BitVec.eq_of_getLsbD_eq fun i hi => ?_
    simpa using h (Finset.mem_range.mpr hi)
  · rintro rfl
    simp

theorem getLsbD_one_shiftLeft {w b : ℕ} (hb : b < w) (i : ℕ) : (1#w <<< b).getLsbD i = decide (i = b) := by
  rw [← BitVec.twoPow_eq, BitVec.getLsbD_twoPow, decide_eq_true hb, Bool.true_and]
  exact decide_eq_decide.mpr eq_comm

/-- Exactly one bit is set: the value is one-hot. -/
theorem popcount_eq_one_iff {w : ℕ} (v : BitVec w) : popcount v = 1 ↔ ∃ b, b < w ∧ v = 1#w <<< b := by
  rw [popcount, popcountBelow_eq_card, Finset.card_eq_one]
  refine exists_congr fun b => ?_
  simp only [Finset.ext_iff, Finset.mem_filter, Finset.mem_range, Finset.mem_singleton]
  constructor
  · intro h
    have hb : b < w := ((h b).mpr rfl).1
    refine ⟨hb, BitVec.eq_of_getLsbD_eq fun i hi => ?_⟩
    rw [getLsbD_one_shiftLeft hb, Bool.eq_iff_iff, decide_eq_true_iff, ← h i, and_iff_right hi]
  · rintro ⟨hb, rfl⟩ i
    rw [getLsbD_one_shiftLeft hb, decide_eq_true_iff]
    exact ⟨And.right, fun h => ⟨h ▸ hb, h⟩⟩

theorem popcount_le_one_iff {w : ℕ} (v : BitVec w) : popcount v ≤ 1 ↔ v = 0#w ∨ ∃ b, b < w ∧ v = 1#w <<< b := by
  rw [← popcount_eq_zero_iff, ← popcount_eq_one_iff]
  exact Nat.le_one_iff_eq_zero_or_eq_one

/-! ### The low bits of a path -/

/-- The remainder by 2^k is not 0 exactly when one of the k lowest bits is set. -/
theorem mod_two_pow_ne_zero_iff (n k : ℕ) : n % 2 ^ k ≠ 0 ↔ ∃ j, j < k ∧ n.testBit j = true := by
  constructor
  · intro h
    obtain ⟨j, hj⟩ := Nat.exists_testBit_of_ne_zero h
    rw [Nat.testBit_mod_two_pow, Bool.and_eq_true, decide_eq_true_iff] at hj
    exact ⟨j, hj⟩
  · rintro ⟨j, hj, hbit⟩ h
    have hmod : (n % 2 ^ k).testBit j = true := by simp [Nat.testBit_mod_two_pow, hj, hbit]
    simp [h] at hmod

theorem toNat_one_shiftLeft {b : ℕ} (hb : b < 128) : (1#128 <<< b).toNat = 2 ^ b := by
  rw [← BitVec.twoPow_eq, BitVec.toNat_twoPow_of_lt hb]

end Sys2Proof.Machine
end

section
/-! SUPPORT. The violation mask by the bits of the image, and what SHR1 keeps of a path and its cursor. -/

namespace Sys2Proof.Machine

/-! ### The violation mask (30_encoding R65) -/

theorem bits4_eq_zero_iff (b0 b1 b2 b3 : Bool) :
    bits4 b0 b1 b2 b3 = 0#4 ↔ b0 = false ∧ b1 = false ∧ b2 = false ∧ b3 = false := by
  revert b0 b1 b2 b3
  decide

/-- The four flags are bits 0 to 3 of the mask. -/
theorem getLsbD_bits4 (b0 b1 b2 b3 : Bool) :
    (bits4 b0 b1 b2 b3).getLsbD 0 = b0 ∧ (bits4 b0 b1 b2 b3).getLsbD 1 = b1 ∧ (bits4 b0 b1 b2 b3).getLsbD 2 = b2 ∧
      (bits4 b0 b1 b2 b3).getLsbD 3 = b3 := by
  revert b0 b1 b2 b3
  decide

theorem violCursorPop_iff (g : Image) : violCursorPop g = true ↔
    ∃ i j : ℕ, i < j ∧ (cat128 g.w8 g.w9).getLsbD i = true ∧ (cat128 g.w8 g.w9).getLsbD j = true := by
  rw [violCursorPop, decide_eq_true_iff, one_lt_popcount_iff]

theorem violPathTail_of_oneHot {g : Image} {b : ℕ} (hb : b < 128) (hc : cat128 g.w8 g.w9 = 1#128 <<< b) :
    violPathTail g = true ↔ ∃ j : ℕ, j ≤ b ∧ (cat128 g.w4 g.w5).getLsbD j = true := by
  have hpop : popcount (1#128 <<< b) = 1 := (popcount_eq_one_iff _).mpr ⟨b, hb, rfl⟩
  rw [violPathTail, hc, hpop, toNat_one_shiftLeft hb, ← Nat.pow_succ']
  simp only [beq_self_eq_true, Bool.true_and, bne_iff_ne, mod_two_pow_ne_zero_iff, Nat.lt_succ_iff,
    BitVec.testBit_toNat]

/-- PATH_TAIL needs a one-hot cursor: it does not hold of an exhausted one (30_encoding R65). -/
theorem violPathTail_iff (g : Image) : violPathTail g = true ↔
    ∃ b : ℕ, b < 128 ∧ cat128 g.w8 g.w9 = 1#128 <<< b ∧ ∃ j : ℕ, j ≤ b ∧ (cat128 g.w4 g.w5).getLsbD j = true := by
  constructor
  · intro h
    have hpop : popcount (cat128 g.w8 g.w9) = 1 := by
      rw [violPathTail, Bool.and_eq_true, beq_iff_eq] at h
      exact h.1
    obtain ⟨b, hb, hc⟩ := (popcount_eq_one_iff _).mp hpop
    exact ⟨b, hb, hc, (violPathTail_of_oneHot hb hc).mp h⟩
  · rintro ⟨b, hb, hc, hj⟩
    exact (violPathTail_of_oneHot hb hc).mpr hj

/-- The path and the cursor of a well-formed state (30_encoding R63, R65): the cursor is exhausted, or it is one-hot and
the path is 0 from its bit down. -/
def CursorFits (path cursor : BitVec 128) : Prop :=
  cursor = 0#128 ∨ ∃ b, b < 128 ∧ cursor = 1#128 <<< b ∧ ∀ j, j ≤ b → path.getLsbD j = false

theorem cursorFits_iff (g : Image) :
    CursorFits (cat128 g.w4 g.w5) (cat128 g.w8 g.w9) ↔ violCursorPop g = false ∧ violPathTail g = false := by
  have hpop : violCursorPop g = false ↔ popcount (cat128 g.w8 g.w9) ≤ 1 := by
    rw [violCursorPop, decide_eq_false_iff_not, not_lt]
  rw [hpop, popcount_le_one_iff]
  constructor
  · rintro (hc | ⟨b, hb, hc, hp⟩)
    · exact ⟨.inl hc, by simp [violPathTail, (popcount_eq_zero_iff _).mpr hc]⟩
    · refine ⟨.inr ⟨b, hb, hc⟩, ?_⟩
      rw [← Bool.not_eq_true, violPathTail_of_oneHot hb hc]
      rintro ⟨j, hj, hbit⟩
      exact absurd hbit (by simp [hp j hj])
  · rintro ⟨hc | ⟨b, hb, hc⟩, hp⟩
    · exact .inl hc
    · rw [← Bool.not_eq_true, violPathTail_of_oneHot hb hc] at hp
      exact .inr ⟨b, hb, hc, fun j hj => by simpa using fun hbit => hp ⟨j, hj, hbit⟩⟩

/-- A state image is well-formed: no violation bit is set. -/
theorem viol_eq_zero_iff (g : Image) :
    viol g = 0#4 ↔ CursorFits (cat128 g.w4 g.w5) (cat128 g.w8 g.w9) ∧ g.w7 ≠ allOnes ∧ g.w6 = 0#64 := by
  rw [viol, bits4_eq_zero_iff, cursorFits_iff, and_assoc, violSentinel, violCtrHi, beq_eq_false_iff_ne,
    bne_eq_false_iff_eq]

/-! ### The shift of a cursor (41_pathcursor R121, R127) -/

/-- A one-hot cursor whose high word is not 0 has no bit in its low word, and its high word is a power of 2. -/
theorem exists_toNat_eq_two_pow {hi lo : Word} (h : popcount (cat128 hi lo) ≤ 1) (hhi : hi ≠ 0#64) :
    lo = 0#64 ∧ ∃ k, hi.toNat = 2 ^ k := by
  have hlt := lo.isLt
  have hpos : 0 < hi.toNat := Nat.pos_of_ne_zero (by simpa [← BitVec.toNat_inj] using hhi)
  obtain hc | ⟨b, hb, hc⟩ := (popcount_le_one_iff _).mp h
  · have hn := congrArg BitVec.toNat hc
    rw [toNat_cat128, BitVec.toNat_zero] at hn
    omega
  · have hn := congrArg BitVec.toNat hc
    rw [toNat_cat128, toNat_one_shiftLeft hb] at hn
    have h64 : 64 ≤ b := by
      by_contra hlow
      have := Nat.pow_lt_pow_right (show 1 < 2 by decide) (show b < 64 by omega)
      omega
    obtain ⟨k, rfl⟩ := Nat.exists_eq_add_of_le h64
    rw [Nat.pow_add] at hn
    exact ⟨BitVec.eq_of_toNat_eq (by rw [BitVec.toNat_zero]; omega), k, by omega⟩

/-- On an exhausted or one-hot cursor SHR1 is the 128-bit logical shift: one of the two words is 0. -/
theorem cat128_shr1 {hi lo : Word} (h : popcount (cat128 hi lo) ≤ 1) :
    cat128 (shr1 hi lo).1 (shr1 hi lo).2 = cat128 hi lo >>> 1 := by
  apply BitVec.eq_of_toNat_eq
  rw [toNat_cat128, BitVec.toNat_ushiftRight, Nat.shiftRight_eq_div_pow, toNat_cat128, pow_one]
  by_cases hhi : hi = 0#64
  · simp [shr1, hhi, Nat.shiftRight_eq_div_pow]
  · obtain ⟨rfl, k, hk⟩ := exists_toNat_eq_two_pow h hhi
    by_cases hone : hi = 1#64
    · subst hone; rfl
    · cases k with
      | zero => exact absurd (BitVec.eq_of_toNat_eq hk) hone
      | succ k =>
        rw [Nat.pow_succ] at hk
        simp only [shr1, if_neg hone, if_neg hhi, BitVec.toNat_ushiftRight, Nat.shiftRight_eq_div_pow,
          BitVec.toNat_zero]
        omega

/-- The shifted cursor fits every path that differs from the old one at most at the old cursor. -/
theorem CursorFits.shift {p c q : BitVec 128} (h : CursorFits p c)
    (hq : ∀ j, c.getLsbD j = false → q.getLsbD j = p.getLsbD j) : CursorFits q (c >>> 1) := by
  obtain rfl | ⟨b, hb, rfl, hp⟩ := h
  · exact .inl (by simp)
  · cases b with
    | zero => exact .inl (by decide)
    | succ b =>
      refine .inr ⟨b, by omega, BitVec.eq_of_getLsbD_eq fun i _ => ?_, fun j hj => ?_⟩
      · rw [BitVec.getLsbD_ushiftRight, getLsbD_one_shiftLeft hb, getLsbD_one_shiftLeft (by omega)]
        exact decide_eq_decide.mpr (by omega)
      · rw [hq j (by rw [getLsbD_one_shiftLeft hb]; exact decide_eq_false (by omega)), hp j (by omega)]

theorem CursorFits.popcount_le_one {p c : BitVec 128} (h : CursorFits p c) : popcount c ≤ 1 :=
  (popcount_le_one_iff c).mpr (h.imp_right fun ⟨b, hb, hc, _⟩ => ⟨b, hb, hc⟩)

/-- The shifted cursor fits the path as it is. -/
theorem CursorFits.skip {p0 p1 c0 c1 : Word} (h : CursorFits (cat128 p0 p1) (cat128 c0 c1)) :
    CursorFits (cat128 p0 p1) (cat128 (shr1 c0 c1).1 (shr1 c0 c1).2) := by
  rw [cat128_shr1 h.popcount_le_one]
  exact h.shift fun _ _ => rfl

/-- The shifted cursor fits the path with a 1 appended at the old cursor (41_pathcursor R127). -/
theorem CursorFits.append {p0 p1 c0 c1 : Word} (h : CursorFits (cat128 p0 p1) (cat128 c0 c1)) :
    CursorFits (cat128 (p0 ||| c0) (p1 ||| c1)) (cat128 (shr1 c0 c1).1 (shr1 c0 c1).2) := by
  rw [cat128_shr1 h.popcount_le_one, cat128_or]
  exact h.shift fun j hj => by rw [BitVec.getLsbD_or, hj, Bool.or_false]

end Sys2Proof.Machine
end

section
/-! SUPPORT. The states that GEN and SPLIT make are well-formed (30_encoding R65). -/

namespace Sys2Proof.Machine

theorem workingTriple_of_headroom {g : Image} {n : Word} (h : hasHeadroom g n = true) :
    workingTriple g n = genHeadroom g := by
  simp [workingTriple, h]

theorem workingTriple_of_exhausted {g : Image} {n : Word} (h : hasHeadroom g n = false) (he : g.exhausted = true) :
    workingTriple g n = genRehash g := by
  simp [workingTriple, h, he]

theorem workingTriple_of_cursor {g : Image} {n : Word} (h : hasHeadroom g n = false) (he : g.exhausted = false) :
    workingTriple g n = genPath g := by
  simp [workingTriple, h, he]

/-- The words of a bank after an image is written to it. -/
@[simp] theorem words_map_put (g : Image) : Claims.words (g.map Reg.put) = g := rfl

/-- A root's cursor, at bit 127, fits the empty path. -/
theorem cursorFits_root : CursorFits (cat128 0#64 0#64) (cat128 topBit 0#64) :=
  .inr ⟨127, by decide, by decide, fun j _ => by simp [getLsbD_cat128]⟩

/-- A counter that does not run up to M does not become the sentinel (30_encoding R64). -/
theorem add_ne_allOnes {c n : Word} (h : c.toNat + n.toNat < 2 ^ 64 - 1) : c + n ≠ allOnes := by
  intro he
  have hn := congrArg BitVec.toNat he
  rw [BitVec.toNat_add, Nat.mod_eq_of_lt (by omega), show allOnes.toNat = 2 ^ 64 - 1 from rfl] at hn
  omega

/-- GEN's successor of a well-formed state is well-formed, in each branch (42_generate R143 to R147). -/
theorem viol_genNext {g : Image} {n : Word} (hv : viol g = 0#4) (hn : n.toNat < 2 ^ 64 - 1) :
    viol (genNext (workingTriple g n) n) = 0#4 := by
  rw [viol_eq_zero_iff] at hv ⊢
  obtain ⟨hfits, -, -⟩ := hv
  have hrestart : 0#64 + n ≠ allOnes := add_ne_allOnes (by simpa using hn)
  cases hh : hasHeadroom g n with
  | true =>
    rw [workingTriple_of_headroom hh]
    rw [hasHeadroom, decide_eq_true_iff] at hh
    exact ⟨hfits, add_ne_allOnes (c := g.w7) (by omega), rfl⟩
  | false =>
    cases he : g.exhausted with
    | true =>
      rw [workingTriple_of_exhausted hh he]
      exact ⟨cursorFits_root, hrestart, rfl⟩
    | false =>
      rw [workingTriple_of_cursor hh he]
      exact ⟨hfits.append, hrestart, rfl⟩

/-- Both children of a well-formed state are well-formed, in each branch (43_split R161, R162). -/
theorem viol_children {g : Image} (hv : viol g = 0#4) : viol (splitLeft g) = 0#4 ∧ viol (splitRight g) = 0#4 := by
  rw [viol_eq_zero_iff] at hv
  obtain ⟨hfits, hsentinel, hhigh⟩ := hv
  simp only [viol_eq_zero_iff, splitLeft, splitRight]
  cases g.exhausted with
  | true =>
    have hzero : (0#64 : Word) ≠ allOnes := by decide
    exact ⟨⟨cursorFits_root.skip, hzero, rfl⟩, ⟨cursorFits_root.append, hzero, rfl⟩⟩
  | false => exact ⟨⟨hfits.skip, hsentinel, hhigh⟩, ⟨hfits.append, hsentinel, hhigh⟩⟩

end Sys2Proof.Machine
end

section
/-! SUPPORT. The statements of 30_encoding, settled. -/

namespace Sys2Proof.Proofs

open Sys2Proof Sys2Proof.Machine

/-- Settles O1: the fields of a word that decodes are those of the command's word, so no other word decodes. -/
theorem decodeAndEncodeAgree : Obligations.DecodeAndEncodeAgree := by
  refine ⟨⟨rfl, rfl, rfl, rfl, rfl, rfl⟩, fun i _ => decode_encode i, fun w i => eq_encode_of_decode, fun w hw => ?_⟩
  cases hd : decode w with
  | ok i => exact absurd (eq_encode_of_decode hd) (hw i)
  | error c => exact ⟨c, rfl⟩

/-- Settles O2, by whether OPC is in the opcode map and then by RSV. -/
theorem decoderTotalWithCauses : Obligations.DecoderTotalWithCauses := by
  intro w
  have hopc : (decodeOpcode (CmdFields.ofWord w).opc).isSome = true ↔ Claims.OpcKnown w := by
    rw [decodeOpcode_isSome_iff, CmdFields.toNat_opc, Claims.OpcKnown]
  rw [← hopc, ← CmdFields.rsv_eq_zero_iff]
  cases ho : decodeOpcode (CmdFields.ofWord w).opc with
  | some i =>
    rw [decode_of_known ho]
    by_cases hr : (CmdFields.ofWord w).rsv = 0#56 <;> simp [hr]
  | none =>
    rw [decode_of_unknown ho]
    simp [CmdFields.rsvLegal]

/-- Settles O4: each field's words are its quotient and its remainder by 2^64. -/
theorem stateCodecRoundTrip : Obligations.StateCodecRoundTrip := by
  refine ⟨fun w => ⟨rfl, toNat_cat128 _ _, toNat_cat128 _ _, toNat_cat128 _ _, ?_⟩, fun f => ?_⟩
  · simp only [stateEncode, stateDecode, Bank.key, div_cat128, mod_cat128]
  · simp only [stateEncode, stateDecode, Bank.key, cat128_div_mod]

/-- Settles O18, flag by flag. -/
theorem violationMaskMeaning : Obligations.ViolationMaskMeaning := by
  intro g
  obtain ⟨hpop, htail, hsentinel, hhigh⟩ :=
    getLsbD_bits4 (violCursorPop g) (violPathTail g) (violSentinel g) (violCtrHi g)
  rw [viol, hpop, htail, hsentinel, hhigh]
  exact ⟨violCursorPop_iff g, violPathTail_iff g, beq_iff_eq, bne_iff_ne⟩

/-- Settles O25: GEN succeeds from well-formed images only, and n is at most MAX_N, far below the sentinel. -/
theorem genSuccessorWellFormed : Obligations.GenSuccessorWellFormed := by
  intro s t h hok
  rcases execGen_cases h with ⟨-, rfl⟩ | ⟨-, -, rfl⟩ | ⟨ha, hv, rfl⟩
  · cases hok
  · cases hok
  · obtain ⟨-, -, hn⟩ := (argCauses_eq_zero_iff _ _).mp ha
    have hmax := Config.maxN_le
    simpa using viol_genNext hv (by omega)

/-- Settles O31: SPLIT succeeds from well-formed images only. -/
theorem splitChildrenWellFormed : Obligations.SplitChildrenWellFormed := by
  intro s t h hok
  rcases execSplit_cases h with ⟨-, rfl⟩ | ⟨hv, rfl⟩
  · cases hok
  · simpa using viol_children hv

/-- Settles O3, the words of the opcode table by `decode_encode` and the illegal ones by running the decoder. -/
theorem sampleWordsDecode : Obligations.SampleWordsDecode :=
  ⟨decode_encode .mix, decode_encode .cexh, decode_encode .cshr, decode_encode .check, decode_encode .gen,
    decode_encode .split, rfl, rfl, rfl, rfl, rfl, rfl⟩

/-- Settles O5: each address by its row of the map, and the map's inverse finds every register. -/
theorem registerAddresses : Obligations.RegisterAddresses :=
  ⟨rfl, rfl, rfl, rfl, rfl, by decide, RegName.ofAddr_addr⟩

end Sys2Proof.Proofs
end

section
/-! SUPPORT. MIX by rules: the function for either value of FINAL_KEY_INJECTION, and the command's next state. -/

namespace Sys2Proof.Machine

/-! ### The function (40_blockmix R105, R106) -/

/-- Five stages, and no injection after the last. -/
theorem mixWith_false (k p : Block) :
    mixWith false k p = mixStage k (mixStage k (mixStage k (mixStage k (mixStage k p 0) 1) 2) 3) 4 := by
  simp only [mixWith, Bool.false_eq_true, if_false]

theorem mixWith_true (k p : Block) : mixWith true k p = inject k (mixWith false k p) 5 := by
  rw [mixWith_false]
  simp only [mixWith, if_true]

/-- FINAL_KEY_INJECTION is false in this hardware (00_scope R4). -/
theorem mix_eq_mixWith_false (k p : Block) : mix k p = mixWith false k p := by
  rw [mix, Config.finalKeyInjection]

/-! ### The command (40_blockmix R107) -/

theorem exec_mix (s : State) :
    exec .mix s = .next (s.writeOaBlock (mix s.latch.img.key s.latch.img.pathCounter)).complete := rfl

/-- A success changes STATUS only (20_memory R52). -/
theorem State.complete_eq (s : State) : s.complete = { s with status := Claims.doneStatus s } := rfl

theorem State.complete_writeOaBlock (b : Block) (s : State) :
    (s.writeOaBlock b).complete = { s with
      oa := { s.oa with w0 := ⟨b.x0, true⟩, w1 := ⟨b.x1, true⟩, w2 := ⟨b.x2, true⟩, w3 := ⟨b.x3, true⟩ }
      status := Claims.doneStatus s } := by
  rw [State.complete_eq]
  rfl

end Sys2Proof.Machine
end

section
/-! SUPPORT. The statements of 40_blockmix on MIX's outcome and on its final injection, settled. -/

namespace Sys2Proof.Proofs

open Sys2Proof Sys2Proof.Machine

/-- Settles O8: MIX is one write of OA0 to OA3 and a success, whatever the state. -/
theorem mixResult : Obligations.MixResult := by
  refine ⟨decode_encode .mix, fun s => ?_⟩
  rw [exec_mix, State.complete_writeOaBlock, Bank.key, Bank.pathCounter]

/-- Settles O11, by the rules of `mixWith` for each value of the parameter. -/
theorem finalInjectionIsParameter : Obligations.FinalInjectionIsParameter :=
  fun k p => ⟨mixWith_true k p, mix_eq_mixWith_false k p⟩

end Sys2Proof.Proofs
end

section
/-! SUPPORT. SHR1 by cases, and the walk of a one-hot cursor down to exhausted. -/

namespace Sys2Proof.Machine

/-! ### SHR1 (41_pathcursor R121) -/

theorem shr1_one (lo : Word) : shr1 1#64 lo = (0#64, topBit) := rfl

theorem shr1_zero (lo : Word) : shr1 0#64 lo = (0#64, lo >>> 1) := rfl

theorem shr1_of_one_lt {hi : Word} (h : 1 < hi.toNat) (lo : Word) : shr1 hi lo = (hi >>> 1, 0#64) := by
  have hone : hi ≠ 1#64 := by rintro rfl; exact absurd h (by decide)
  have hzero : hi ≠ 0#64 := by rintro rfl; exact absurd h (by decide)
  rw [shr1, if_neg hone, if_neg hzero]

/-! ### The walk of a one-hot cursor (41_pathcursor R121, R127) -/

/-- A field determines its two words. -/
theorem pair_eq_of_cat128_eq {a b c d : Word} (h : cat128 a b = cat128 c d) : (a, b) = (c, d) := by
  have hhi := div_cat128 a b
  have hlo := mod_cat128 a b
  rw [h, div_cat128] at hhi
  rw [h, mod_cat128] at hlo
  rw [hhi, hlo]

theorem popcount_one_shiftLeft_le_one {w b : ℕ} (hb : b < w) : popcount (1#w <<< b) ≤ 1 :=
  (popcount_le_one_iff _).mpr (.inr ⟨b, hb, rfl⟩)

/-- A right shift sets no further bit. -/
theorem popcount_ushiftRight_le_one {w : ℕ} {v : BitVec w} (h : popcount v ≤ 1) (k : ℕ) : popcount (v >>> k) ≤ 1 := by
  contrapose! h
  obtain ⟨i, j, hij, hi, hj⟩ := (one_lt_popcount_iff _).mp h
  rw [BitVec.getLsbD_ushiftRight] at hi hj
  exact (one_lt_popcount_iff v).mpr ⟨k + i, k + j, Nat.add_lt_add_left hij k, hi, hj⟩

theorem one_shiftLeft_ushiftRight_one {w b : ℕ} (hpos : 0 < b) (hb : b < w) :
    1#w <<< b >>> 1 = 1#w <<< (b - 1) := by
  refine BitVec.eq_of_getLsbD_eq fun i _ => ?_
  rw [BitVec.getLsbD_ushiftRight, getLsbD_one_shiftLeft hb, getLsbD_one_shiftLeft (by omega)]
  exact decide_eq_decide.mpr (by omega)

/-- One application of SHR1 moves a one-hot cursor one bit down. -/
theorem cat128_shr1_of_oneHot {hi lo : Word} {b : ℕ} (hpos : 0 < b) (hb : b < 128)
    (h : cat128 hi lo = 1#128 <<< b) : cat128 (shr1 hi lo).1 (shr1 hi lo).2 = 1#128 <<< (b - 1) := by
  have hpop : popcount (cat128 hi lo) ≤ 1 := h ▸ popcount_one_shiftLeft_le_one hb
  rw [cat128_shr1 hpop, h, one_shiftLeft_ushiftRight_one hpos hb]

/-- At bit 0 SHR1 exhausts the cursor. -/
theorem shr1_of_lastBit {hi lo : Word} (h : cat128 hi lo = 1#128 <<< 0) : shr1 hi lo = (0#64, 0#64) := by
  cases pair_eq_of_cat128_eq (h.trans (show 1#128 <<< 0 = cat128 0#64 1#64 by decide))
  rfl

/-- k applications of SHR1 are the 128-bit logical shift by k. -/
theorem cat128_shr1_iterate {c : Word × Word} (h : popcount (cat128 c.1 c.2) ≤ 1) (k : ℕ) :
    cat128 ((Function.uncurry shr1)^[k] c).1 ((Function.uncurry shr1)^[k] c).2 = cat128 c.1 c.2 >>> k := by
  induction k with
  | zero => rfl
  | succ k ih =>
    have hpop := popcount_ushiftRight_le_one h k
    rw [← ih] at hpop
    rw [Function.iterate_succ_apply', Function.uncurry, cat128_shr1 hpop, ih, ← BitVec.shiftRight_add]

/-- Where the root's walk stands after k applications of SHR1, told by the 128-bit value alone. -/
theorem shr1_iterate_root_iff (k : ℕ) (c : Word × Word) :
    (Function.uncurry shr1)^[k] (topBit, 0#64) = c ↔ 1#128 <<< 127 >>> k = cat128 c.1 c.2 := by
  have hroot : cat128 topBit 0#64 = 1#128 <<< 127 := by decide
  have hwalk := cat128_shr1_iterate (c := (topBit, 0#64)) (hroot ▸ popcount_one_shiftLeft_le_one (by decide)) k
  rw [hroot] at hwalk
  rw [← hwalk]
  exact ⟨fun h => h ▸ rfl, pair_eq_of_cat128_eq⟩

theorem shr1_iterate_root_eq_lastBit_iff (k : ℕ) :
    (Function.uncurry shr1)^[k] (topBit, 0#64) = (0#64, 1#64) ↔ k = 127 := by
  rw [shr1_iterate_root_iff]
  constructor
  · intro h
    have hbit : (1#128 <<< 127 >>> k).getLsbD 0 = true := h ▸ (by decide)
    rwa [BitVec.getLsbD_ushiftRight, getLsbD_one_shiftLeft (by decide), decide_eq_true_iff] at hbit
  · rintro rfl
    decide

/-- Appending a bit at the cursor keeps the path 0 below it (41_pathcursor R127). -/
theorem getLsbD_append_below {p0 p1 c0 c1 : Word} {b j : ℕ} (hb : b < 128) (hc : cat128 c0 c1 = 1#128 <<< b)
    (hj : j < b) (hp : (cat128 p0 p1).getLsbD j = false) :
    (cat128 (p0 ||| c0) (p1 ||| c1)).getLsbD j = false := by
  rw [cat128_or, BitVec.getLsbD_or, hp, hc, getLsbD_one_shiftLeft hb, Bool.false_or]
  exact decide_eq_false hj.ne

end Sys2Proof.Machine
end

section
/-! SUPPORT. CEXH, CSHR and CHECK by rules: what each leaves in the state. -/

namespace Sys2Proof.Machine

/-! ### The two commands that cannot fail (41_pathcursor R123, R126) -/

theorem exh_iff (hi lo : Word) : exh hi lo = true ↔ hi = 0#64 ∧ lo = 0#64 := by
  rw [exh, Bool.and_eq_true, beq_iff_eq, beq_iff_eq]

theorem exec_cexh (s : State) :
    exec .cexh s = .next (s.writeRes (if exh s.latch.img.w8 s.latch.img.w9 then 1#64 else 0#64)).complete := rfl

theorem exec_check (s : State) :
    exec .check s = .next (s.writeRes ((viol s.latch.img).zeroExtend 64)).complete := rfl

theorem State.complete_writeRes (v : Word) (s : State) :
    (s.writeRes v).complete = { s with res := ⟨v, true⟩, status := Claims.doneStatus s } := by
  rw [State.complete_eq]
  rfl

/-! ### The two outcomes of CSHR (41_pathcursor R124) -/

theorem State.complete_writeOaCursor (c : Word × Word) (s : State) :
    (s.writeOaCursor c).complete = { s with
      oa := { s.oa with w8 := ⟨c.1, true⟩, w9 := ⟨c.2, true⟩ }
      status := Claims.doneStatus s } := by
  rw [State.complete_eq]
  rfl

/-- A precondition error changes STATUS and adds its report to the record (60_exceptions R186, 70_reset R224). -/
theorem State.raise_precondition (d : BitVec 4) (s : State) :
    s.raise (.preconditionViolation d) = { s with
      status := Claims.errorStatus s .precondition d
      faults := .precondition s.latch.word d :: s.faults } := rfl

end Sys2Proof.Machine
end

section
/-! SUPPORT. The statements of 41_pathcursor, settled. -/

namespace Sys2Proof.Proofs

open Sys2Proof Sys2Proof.Machine

/-- Settles O14, by the equation of each case and the shift law of cursors. -/
theorem shrOneIsLogicalShift : Obligations.ShrOneIsLogicalShift :=
  ⟨shr1_one, shr1_zero, fun _ lo h => shr1_of_one_lt h lo, fun _ _ => cat128_shr1⟩

/-- Settles O15: a cursor is its 128-bit value, which the walk from the root shifts one bit at a time. -/
theorem shrOneProperties : Obligations.ShrOneProperties := by
  refine ⟨fun _ _ _ => cat128_shr1_of_oneHot, shr1_zero _, shr1_zero _, ?_, shr1_iterate_root_eq_lastBit_iff,
    fun p0 p1 c0 c1 b hb hc hp => ⟨fun j hj => ?_, fun hpos => cat128_shr1_of_oneHot hpos hb hc, ?_⟩⟩
  · exact (shr1_iterate_root_iff 128 (0#64, 0#64)).mpr (by decide)
  · exact ⟨hp j hj.le, getLsbD_append_below hb hc hj (hp j hj.le)⟩
  · rintro rfl
    exact shr1_of_lastBit hc

/-- Settles O13: CEXH is one write of RES and a success, whatever the state. -/
theorem cexhResult : Obligations.CexhResult := by
  refine ⟨decode_encode .cexh, fun s => ?_⟩
  rw [exec_cexh, State.complete_writeRes]
  simp only [exh_iff]

/-- Settles O16, by the two things CSHR can do. -/
theorem cshrResult : Obligations.CshrResult := by
  refine ⟨decode_encode .cshr, fun s => ?_⟩
  obtain ⟨t, h⟩ := exec_total .cshr s
  rw [h]
  rcases execCshr_cases h with ⟨hp, rfl⟩ | ⟨hp, rfl⟩
  · exact ⟨fun hle => absurd hp (Nat.not_lt.mpr hle), fun _ => congrArg _ (s.raise_precondition _)⟩
  · exact ⟨fun _ => congrArg _ (State.complete_writeOaCursor _ s), fun hlt => absurd hlt hp⟩

/-- Settles O17: CHECK is one write of RES and a success, whatever the state. -/
theorem checkResult : Obligations.CheckResult := by
  refine ⟨decode_encode .check, fun s => ?_⟩
  rw [exec_check, State.complete_writeRes, BitVec.zeroExtend, BitVec.setWidth_eq_append (by decide)]
  rfl

end Sys2Proof.Proofs
end

section
/-! SUPPORT. GEN by rules: the cause bits, the three outcomes of the command, and the words it leaves in BUF. -/

namespace Sys2Proof.Machine

/-! ### The argument checks (42_generate R140) -/

theorem argsOk_iff (s : State) : Claims.ArgsOk s ↔ argCauses Config.maxN s.latch.nlen = 0#4 :=
  (argCauses_eq_zero_iff _ _).symm

/-- Each cause bit says its cause of n and of the capacity. -/
theorem getLsbD_argCauses (m : ℕ) (n : Word) :
    ((argCauses m n).getLsbD 0 = true ↔ n = 0#64) ∧ ((argCauses m n).getLsbD 1 = true ↔ n.toNat % 4 ≠ 0) ∧
      ((argCauses m n).getLsbD 2 = true ↔ m < n.toNat) ∧ (argCauses m n).getLsbD 3 = false := by
  obtain ⟨hzero, hmult, hlarge, hthree⟩ :=
    getLsbD_bits4 (n == 0#64) (n.toNat % 4 != 0) (decide (m < n.toNat)) false
  rw [argCauses, hzero, hmult, hlarge, hthree]
  exact ⟨beq_iff_eq, bne_iff_ne, decide_eq_true_iff, rfl⟩

/-- An argument error changes STATUS only, and is not recorded (60_exceptions R186, 70_reset R224). -/
theorem State.raise_invalidArgument (d : BitVec 4) (s : State) :
    s.raise (.invalidArgument d) = { s with status := Claims.errorStatus s .invalidArg d } := rfl

/-! ### The three outcomes (42_generate R148) -/

theorem exec_gen_of_causes {s : State} (ha : argCauses Config.maxN s.latch.nlen ≠ 0#4) :
    exec .gen s = .next (s.raise (.invalidArgument (argCauses Config.maxN s.latch.nlen))) := by
  rcases execGen_cases (s := s) rfl with ⟨-, e⟩ | ⟨h, -⟩ | ⟨h, -⟩
  · exact congrArg _ e
  · exact absurd h ha
  · exact absurd h ha

theorem exec_gen_of_viol {s : State} (ha : argCauses Config.maxN s.latch.nlen = 0#4) (hv : viol s.latch.img ≠ 0#4) :
    exec .gen s = .next (s.raise (.preconditionViolation (viol s.latch.img))) := by
  rcases execGen_cases (s := s) rfl with ⟨h, -⟩ | ⟨-, -, e⟩ | ⟨-, h, -⟩
  · exact absurd ha h
  · exact congrArg _ e
  · exact absurd h hv

theorem exec_gen_of_ok {s : State} (ha : argCauses Config.maxN s.latch.nlen = 0#4) (hv : viol s.latch.img = 0#4) :
    exec .gen s = .next ((s.writeBuf (genValues (workingTriple s.latch.img s.latch.nlen) s.latch.nlen)).writeOa
      (genNext (workingTriple s.latch.img s.latch.nlen) s.latch.nlen)).complete := by
  rcases execGen_cases (s := s) rfl with ⟨h, -⟩ | ⟨-, h, -⟩ | ⟨-, -, e⟩
  · exact absurd ha h
  · exact absurd hv h
  · exact congrArg _ e

/-! ### The values in BUF (42_generate R146, R147) -/

/-- Without its first j blocks the values array is that of the blocks from the j-th on. -/
theorem drop_genValuesFrom (tr : Triple) {i j c : ℕ} (hj : j ≤ c) :
    (genValuesFrom tr i c).drop (4 * j) = genValuesFrom tr (i + j) (c - j) := by
  induction j generalizing i c with
  | zero => rfl
  | succ j ih =>
    cases c with
    | zero => omega
    | succ c =>
      have hrest : (genValuesFrom tr i (c + 1)).drop (4 * (j + 1)) = (genValuesFrom tr (i + 1) c).drop (4 * j) := rfl
      rw [hrest, ih (by omega), Nat.add_sub_add_right, Nat.add_right_comm, Nat.add_assoc]

/-- The word at `4 * i + r` is word r of block i. -/
theorem getElem?_genValues (tr : Triple) {n : Word} {i : ℕ} (hi : i < n.toNat / 4) (r : ℕ) :
    (genValues tr n)[4 * i + r]? = (genValuesFrom tr i (n.toNat / 4 - i - 1 + 1))[r]? := by
  rw [← List.getElem?_drop, genValues, drop_genValuesFrom tr hi.le, Nat.zero_add, Nat.sub_add_cancel (by omega)]

theorem read_writeList_genValues_block (m : Memory) (tr : Triple) {n : Word} {i : ℕ} (hi : i < n.toNat / 4) :
    Memory.read (Memory.writeList m 0 (genValues tr n)) (4 * i) = some (genBlock tr i).x0 ∧
    Memory.read (Memory.writeList m 0 (genValues tr n)) (4 * i + 1) = some (genBlock tr i).x1 ∧
    Memory.read (Memory.writeList m 0 (genValues tr n)) (4 * i + 2) = some (genBlock tr i).x2 ∧
    Memory.read (Memory.writeList m 0 (genValues tr n)) (4 * i + 3) = some (genBlock tr i).x3 := by
  have hread : ∀ r, r < 4 → Memory.read (Memory.writeList m 0 (genValues tr n)) (4 * i + r) =
      (genValuesFrom tr i (n.toNat / 4 - i - 1 + 1))[r]? := by
    intro r hr
    have hlen : (genValues tr n).length = 4 * (n.toNat / 4) := length_genValuesFrom tr 0 _
    rw [← getElem?_genValues tr hi, ← Memory.read_writeList_inside (m := m) (i := 0) (by omega), Nat.zero_add]
  exact ⟨hread 0 (by decide), hread 1 (by decide), hread 2 (by decide), hread 3 (by decide)⟩

/-- What a success leaves, from the working triple of whichever branch was taken. -/
theorem exec_gen_writes {s : State} (ha : Claims.ArgsOk s) (hv : viol s.latch.img = 0#4) {tr : Triple}
    (htr : workingTriple s.latch.img s.latch.nlen = tr) :
    ∃ t, exec .gen s = .next t ∧
      Claims.GenWrites s t tr.key tr.path0 tr.path1 tr.cb0 tr.cb1 tr.cur0 tr.cur1 := by
  subst htr
  exact ⟨_, exec_gen_of_ok ((argsOk_iff s).mp ha) hv, rfl, fun _ => read_writeList_genValues_block s.buf _,
    fun _ hk => Memory.read_writeList_genValues hk s.buf _⟩

/-! ### Branch selection (42_generate R142) -/

theorem hasHeadroom_iff (g : Image) (n : Word) :
    hasHeadroom g n = true ↔ g.w7.toNat < 2 ^ 64 - 1 - n.toNat := by
  rw [hasHeadroom, decide_eq_true_iff]

theorem Bank.exhausted_iff (g : Image) : g.exhausted = true ↔ g.w8 = 0#64 ∧ g.w9 = 0#64 := by
  rw [Bank.exhausted, Bool.and_eq_true, beq_iff_eq, beq_iff_eq]

theorem hasHeadroom_eq_false_of_le {g : Image} {n : Word} (h : 2 ^ 64 - 1 - n.toNat ≤ g.w7.toNat) :
    hasHeadroom g n = false := by
  rw [← Bool.not_eq_true, hasHeadroom_iff]
  exact Nat.not_lt.mpr h

/-! ### The counter (42_generate R143 to R147) -/

/-- The counter base is the state's counter where there is headroom, and 0 in the other two branches. -/
theorem toNat_cb1_workingTriple (g : Image) (n : Word) :
    (workingTriple g n).cb1.toNat = if g.w7.toNat < 2 ^ 64 - 1 - n.toNat then g.w7.toNat else 0 := by
  cases hh : hasHeadroom g n with
  | true => rw [workingTriple_of_headroom hh, if_pos ((hasHeadroom_iff g n).mp hh), genHeadroom]
  | false =>
    rw [if_neg (by rw [← hasHeadroom_iff, hh]; decide)]
    cases he : g.exhausted with
    | true => rw [workingTriple_of_exhausted hh he]; rfl
    | false => rw [workingTriple_of_cursor hh he]; rfl

/-- From the counter base, n further counts stay below the sentinel. -/
theorem cb1_add_lt_sentinel (g : Image) {n : Word} (hn : n.toNat < 2 ^ 64 - 1) :
    (workingTriple g n).cb1.toNat + n.toNat < 2 ^ 64 - 1 := by
  rw [toNat_cb1_workingTriple]
  split <;> omega

/-- A number below 2^64 is the value of its word. -/
theorem toNat_ofNat_word {i : ℕ} (h : i < 2 ^ 64) : (BitVec.ofNat 64 i).toNat = i := by
  rw [BitVec.toNat_ofNat, Nat.mod_eq_of_lt h]

/-- No block's counter word wraps. -/
theorem toNat_blockPlaintext_x3 (g : Image) {n : Word} (hn : n.toNat < 2 ^ 64 - 1) {i : ℕ} (hi : i < n.toNat / 4) :
    (blockPlaintext (workingTriple g n) i).x3.toNat = (workingTriple g n).cb1.toNat + i := by
  have hlt := cb1_add_lt_sentinel g hn
  have hi64 : (BitVec.ofNat 64 i).toNat = i := toNat_ofNat_word (by omega)
  rw [blockPlaintext, BitVec.toNat_add_of_lt (by omega), hi64]

end Sys2Proof.Machine
end

section
/-! SUPPORT. MIX under one key loses nothing of its plaintext: every operation of a stage can be undone. -/

namespace Sys2Proof.Machine

/-- A rotation moves bit i to bit i + r, counted modulo 64 (00_scope section 4). -/
theorem getLsbD_rotl64 (a : Word) {r i : ℕ} (hr : r < 64) (hi : i < 64) :
    (rotl64 a r).getLsbD ((i + r) % 64) = a.getLsbD i := by
  rw [rotl64, BitVec.getLsbD_or, BitVec.getLsbD_shiftLeft, BitVec.getLsbD_ushiftRight]
  by_cases hwrap : i + r < 64
  · have hout : a.getLsbD (64 - r + (i + r)) = false := BitVec.getLsbD_of_ge _ _ (by omega)
    simp [Nat.mod_eq_of_lt hwrap, hwrap, hout]
  · have hmod : (i + r) % 64 = i + r - 64 := by omega
    have hlow : i + r - 64 < r := by omega
    rw [hmod, show 64 - r + (i + r - 64) = i by omega]
    simp [hlow]

theorem rotl64_injective {r : ℕ} (hr : r < 64) : Function.Injective (rotl64 · r) := by
  intro a b h
  refine BitVec.eq_of_getLsbD_eq fun i hi => ?_
  rw [← getLsbD_rotl64 a hr hi, ← getLsbD_rotl64 b hr hi]
  exact congrArg (BitVec.getLsbD · _) h

theorem rot4_lt (g : ℕ) : (rot4 g).1 < 64 ∧ (rot4 g).2 < 64 := by
  unfold rot4
  split <;> decide

theorem inject_injective (k : Block) (s : ℕ) : Function.Injective (inject k · s) := by
  rintro ⟨x0, x1, x2, x3⟩ ⟨y0, y1, y2, y3⟩ h
  simpa [inject] using h

/-- The sum and the mixed word of a pair determine it (40_blockmix R103). -/
theorem pair_eq_of_mixed_eq {a b c d : Word} {r : ℕ} (hr : r < 64) (hsum : a + b = c + d)
    (hxor : (a + b) ^^^ rotl64 b r = (c + d) ^^^ rotl64 d r) : a = c ∧ b = d := by
  rw [hsum, BitVec.xor_right_inj] at hxor
  obtain rfl : b = d := rotl64_injective hr hxor
  exact ⟨add_right_cancel hsum, rfl⟩

theorem permute_involutive : Function.Involutive permute := fun _ => rfl

theorem mixRound_injective (g : ℕ) : Function.Injective (mixRound · g) := by
  rintro ⟨x0, x1, x2, x3⟩ ⟨y0, y1, y2, y3⟩ h
  have hpairs := permute_involutive.injective h
  simp only [Block.mk.injEq] at hpairs
  obtain ⟨hsum0, hxor0, hsum1, hxor1⟩ := hpairs
  obtain ⟨hr0, hr1⟩ := rot4_lt g
  obtain ⟨rfl, rfl⟩ := pair_eq_of_mixed_eq hr0 hsum0 hxor0
  obtain ⟨rfl, rfl⟩ := pair_eq_of_mixed_eq hr1 hsum1 hxor1
  rfl

theorem mixStage_injective (k : Block) (s : ℕ) : Function.Injective (mixStage k · s) :=
  (mixRound_injective _).comp <| (mixRound_injective _).comp <| (mixRound_injective _).comp <|
    (mixRound_injective _).comp (inject_injective k s)

theorem mix_injective (k : Block) : Function.Injective (mix k) := by
  have hstages : Function.Injective (mixWith false k) :=
    (mixStage_injective k 4).comp <| (mixStage_injective k 3).comp <| (mixStage_injective k 2).comp <|
      (mixStage_injective k 1).comp (mixStage_injective k 0)
  rwa [← funext (mix_eq_mixWith_false k)] at hstages

/-- Blocks whose numbers differ below 2^64 differ in their last plaintext word, and so in their values. -/
theorem genBlock_ne {tr : Triple} {i j : ℕ} (hij : i < j) (hj : j < 2 ^ 64) : genBlock tr i ≠ genBlock tr j := by
  intro h
  have hplain : blockPlaintext tr i = blockPlaintext tr j := mix_injective tr.key h
  have hcount : BitVec.ofNat 64 i = BitVec.ofNat 64 j := add_left_cancel (congrArg Block.x3 hplain)
  have hn := congrArg BitVec.toNat hcount
  rw [toNat_ofNat_word (hij.trans hj), toNat_ofNat_word hj] at hn
  exact hij.ne hn

end Sys2Proof.Machine
end

section
/-! SUPPORT. The statements of 42_generate, settled. -/

namespace Sys2Proof.Proofs

open Sys2Proof Sys2Proof.Machine

/-- Settles O19: the argument checks come first, and their bits are the ones reported. -/
theorem genArgumentErrors : Obligations.GenArgumentErrors := by
  intro s hargs
  have ha : argCauses Config.maxN s.latch.nlen ≠ 0#4 := fun h => hargs ((argsOk_iff s).mpr h)
  obtain ⟨hzero, hmult, hlarge, hthree⟩ := getLsbD_argCauses Config.maxN s.latch.nlen
  refine ⟨_, hzero, hmult, hlarge, hthree, ?_⟩
  rw [exec_gen_of_causes ha, State.raise_invalidArgument]

/-- Settles O20: with the arguments passed the violation mask decides. -/
theorem genStateErrors : Obligations.GenStateErrors := by
  intro s hargs hv
  rw [exec_gen_of_viol ((argsOk_iff s).mp hargs) hv, State.raise_precondition]

/-- Settles O21: with headroom the working triple is the state's own. -/
theorem genHeadroomResult : Obligations.GenHeadroomResult :=
  fun _ hargs hv hroom =>
    exec_gen_writes hargs hv (workingTriple_of_headroom ((hasHeadroom_iff _ _).mpr hroom))

/-- Settles O22: without headroom and with an exhausted cursor the working triple is a root under the fresh key. -/
theorem genRehashResult : Obligations.GenRehashResult :=
  fun s hargs hv hroom hhi hlo =>
    exec_gen_writes hargs hv (workingTriple_of_exhausted (hasHeadroom_eq_false_of_le hroom)
      ((Bank.exhausted_iff s.latch.img).mpr ⟨hhi, hlo⟩))

/-- Settles O23: without headroom and with a live cursor the working triple is the extended path. -/
theorem genPathResult : Obligations.GenPathResult := by
  intro s hargs hv hroom hcur
  rw [← Bank.exhausted_iff, Bool.not_eq_true] at hcur
  exact exec_gen_writes hargs hv (workingTriple_of_cursor (hasHeadroom_eq_false_of_le hroom) hcur)

/-- Settles O24: the counter base leaves room for n, and n is at most MAX_N, far below the sentinel. -/
theorem genCounterNeverWraps : Obligations.GenCounterNeverWraps := by
  intro s t h hok
  rcases execGen_cases h with ⟨-, rfl⟩ | ⟨-, -, rfl⟩ | ⟨ha, -, rfl⟩
  · cases hok
  · cases hok
  · obtain ⟨-, -, hn⟩ := (argCauses_eq_zero_iff _ _).mp ha
    have hn64 : s.latch.nlen.toNat < 2 ^ 64 - 1 := by
      have hmax := Config.maxN_le
      omega
    have hlt := cb1_add_lt_sentinel s.latch.img hn64
    dsimp only
    rw [← toNat_cb1_workingTriple]
    exact ⟨BitVec.toNat_add_of_lt (by omega), hlt, fun _ => toNat_blockPlaintext_x3 s.latch.img hn64⟩

/-- Settles O26: MIX is injective under the one key of the working triple, and n/4 block numbers do not wrap. -/
theorem genBlocksDistinct : Obligations.GenBlocksDistinct := by
  intro m g n tr _ i j hij hj
  exact genBlock_ne hij (by have := n.isLt; omega)

end Sys2Proof.Proofs
end

section
/-! SUPPORT. SPLIT by rules: the two outcomes of the command, the children of each branch, and the bit in which they
differ. -/

namespace Sys2Proof.Machine

/-! ### The two outcomes (43_split R160, R163) -/

theorem exec_split_of_viol {s : State} (hv : viol s.latch.img ≠ 0#4) :
    exec .split s = .next (s.raise (.preconditionViolation (viol s.latch.img))) := by
  rcases execSplit_cases (s := s) rfl with ⟨-, e⟩ | ⟨h, -⟩
  · exact congrArg _ e
  · exact absurd h hv

theorem State.complete_writeOb_writeOa (l r : Image) (s : State) :
    ((s.writeOa l).writeOb r).complete = { s with
      oa := l.map Reg.put
      ob := r.map Reg.put
      status := Claims.doneStatus s } := by
  rw [State.complete_eq]
  rfl

theorem exec_split_of_ok {s : State} (hv : viol s.latch.img = 0#4) :
    exec .split s = .next { s with
      oa := (splitLeft s.latch.img).map Reg.put
      ob := (splitRight s.latch.img).map Reg.put
      status := Claims.doneStatus s } := by
  rcases execSplit_cases (s := s) rfl with ⟨h, -⟩ | ⟨-, e⟩
  · exact absurd hv h
  · exact congrArg _ (e.trans (State.complete_writeOb_writeOa _ _ s))

/-- A SPLIT that reports no error had a well-formed image, and left its children in OA and OB. -/
theorem children_of_exec_split {s t : State} (h : exec .split s = .next t) (hok : t.status.err = .none) :
    viol s.latch.img = 0#4 ∧ Claims.words t.oa = splitLeft s.latch.img ∧
      Claims.words t.ob = splitRight s.latch.img := by
  rcases execSplit_cases h with ⟨-, rfl⟩ | ⟨hv, rfl⟩
  · cases hok
  · exact ⟨hv, rfl, rfl⟩

/-! ### The children of each branch (43_split R161, R162) -/

theorem children_of_exhausted {g : Image} (he : g.w8 = 0#64 ∧ g.w9 = 0#64) :
    splitLeft g = rehashChild g 0#64 ∧ splitRight g = rehashChild g topBit := by
  rw [← Bank.exhausted_iff] at he
  exact ⟨if_pos he, if_pos he⟩

theorem children_of_cursor {g : Image} (he : ¬ (g.w8 = 0#64 ∧ g.w9 = 0#64)) :
    splitLeft g = extendChild g g.w4 g.w5 ∧ splitRight g = extendChild g (g.w4 ||| g.w8) (g.w5 ||| g.w9) := by
  rw [← Bank.exhausted_iff] at he
  exact ⟨if_neg he, if_neg he⟩

/-! ### The bit in which the children differ (43_split R164) -/

/-- A live cursor that fits a path is one-hot, and the path is 0 at its bit. -/
theorem CursorFits.exists_bit {p : BitVec 128} {c0 c1 : Word} (h : CursorFits p (cat128 c0 c1))
    (hlive : ¬ (c0 = 0#64 ∧ c1 = 0#64)) :
    ∃ b, b < 128 ∧ cat128 c0 c1 = 1#128 <<< b ∧ p.getLsbD b = false := by
  obtain hzero | ⟨b, hb, hc, hp⟩ := h
  · cases pair_eq_of_cat128_eq (hzero.trans (show 0#128 = cat128 0#64 0#64 by decide))
    exact absurd ⟨rfl, rfl⟩ hlive
  · exact ⟨b, hb, hc, hp b le_rfl⟩

/-- Appending a bit at the cursor sets the path there (41_pathcursor R127). -/
theorem getLsbD_append_at {c0 c1 : Word} {b : ℕ} (hb : b < 128) (hc : cat128 c0 c1 = 1#128 <<< b) (p0 p1 : Word) :
    (cat128 (p0 ||| c0) (p1 ||| c1)).getLsbD b = true := by
  rw [cat128_or, BitVec.getLsbD_or, hc, getLsbD_one_shiftLeft hb, decide_eq_true rfl, Bool.or_true]

theorem ne_of_path_bit {g h : Image} {b : ℕ} (hg : (cat128 g.w4 g.w5).getLsbD b = false)
    (hh : (cat128 h.w4 h.w5).getLsbD b = true) : g ≠ h := by
  rintro rfl
  exact Bool.false_ne_true (hg.symm.trans hh)

/-! ### The stream of the left child (43_split R165) -/

/-- The values depend on the working triple by its blocks alone: the new cursor is no part of them. -/
theorem genValuesFrom_congr {t u : Triple} (h : ∀ i, genBlock t i = genBlock u i) (i c : ℕ) :
    genValuesFrom t i c = genValuesFrom u i c := by
  induction c generalizing i with
  | zero => rfl
  | succ c ih => simp only [genValuesFrom, h, ih]

/-- With headroom the left child of EXTEND has its parent's values: it keeps the key, the path and the counter, and so
the headroom too. -/
theorem genValues_extendChild {g : Image} {n : Word} (hroom : hasHeadroom g n = true) :
    genValues (workingTriple (extendChild g g.w4 g.w5) n) n = genValues (workingTriple g n) n := by
  have hchild : hasHeadroom (extendChild g g.w4 g.w5) n = true := hroom
  have hblocks : ∀ i, genBlock (genHeadroom (extendChild g g.w4 g.w5)) i = genBlock (genHeadroom g) i := fun _ => rfl
  rw [workingTriple_of_headroom hroom, workingTriple_of_headroom hchild]
  exact genValuesFrom_congr hblocks 0 _

/-- The n words of BUF that GEN fills are its values, whatever BUF held. -/
theorem read_writeList_genValues_inside {n : Word} {k : ℕ} (hmult : n.toNat % 4 = 0) (hk : k < n.toNat) (m : Memory)
    (tr : Triple) : Memory.read (Memory.writeList m 0 (genValues tr n)) k = (genValues tr n)[k]? := by
  have hlen : (genValues tr n).length = 4 * (n.toNat / 4) := length_genValuesFrom tr 0 _
  rw [← Memory.read_writeList_inside (m := m) (i := 0) (by omega), Nat.zero_add]

end Sys2Proof.Machine
end

section
/-! SUPPORT. The statements of 43_split, settled. -/

namespace Sys2Proof.Proofs

open Sys2Proof Sys2Proof.Machine

/-- Settles O27: the violation mask decides. -/
theorem splitStateErrors : Obligations.SplitStateErrors := by
  intro s hv
  rw [exec_split_of_viol hv, State.raise_precondition]

/-- Settles O28: with an exhausted cursor both children take the fresh key, and their paths tell them apart. -/
theorem splitRehashResult : Obligations.SplitRehashResult := by
  intro s hv hhi hlo
  obtain ⟨hleft, hright⟩ := children_of_exhausted ⟨hhi, hlo⟩
  rw [exec_split_of_ok hv, hleft, hright]
  rfl

/-- Settles O29: with a live cursor both children carry the key and the counter. -/
theorem splitExtendResult : Obligations.SplitExtendResult := by
  intro s hv hcur
  obtain ⟨hleft, hright⟩ := children_of_cursor hcur
  rw [exec_split_of_ok hv, hleft, hright]
  rfl

/-- Settles O30, by the branch: the right child's path has the bit that the branch sets, the left child's has not. -/
theorem splitChildrenDiffer : Obligations.SplitChildrenDiffer := by
  intro s t h hok
  obtain ⟨hv, hoa, hob⟩ := children_of_exec_split h hok
  dsimp only
  rw [hoa, hob]
  by_cases he : s.latch.img.w8 = 0#64 ∧ s.latch.img.w9 = 0#64
  · obtain ⟨hleft, hright⟩ := children_of_exhausted he
    have hclear : (cat128 0#64 0#64).getLsbD 127 = false := by decide
    have hset : (cat128 topBit 0#64).getLsbD 127 = true := by decide
    rw [hleft, hright]
    exact ⟨ne_of_path_bit hclear hset, fun _ => ⟨hclear, hset⟩, absurd he⟩
  · obtain ⟨hleft, hright⟩ := children_of_cursor he
    obtain ⟨hfits, -, -⟩ := (viol_eq_zero_iff _).mp hv
    obtain ⟨b, hb, hc, hclear⟩ := hfits.exists_bit he
    have hset := getLsbD_append_at hb hc s.latch.img.w4 s.latch.img.w5
    rw [hleft, hright]
    exact ⟨ne_of_path_bit hclear hset, fun h => absurd h he, fun _ => ⟨b, hb, hc, hclear, hset⟩⟩

/-- Settles O32: the left child is well-formed, so GEN succeeds on it, and its values are the parent's. -/
theorem leftChildSharesStream : Obligations.LeftChildSharesStream := by
  intro s u v u' v' hv hcur hsplit hok himg hn hroom hargs hgen hgen'
  obtain ⟨-, hoa, -⟩ := children_of_exec_split hsplit hok
  obtain ⟨hleft, -⟩ := children_of_cursor hcur
  obtain ⟨hchild, -⟩ := viol_children hv
  have ha := (argsOk_iff s).mp hargs
  obtain ⟨-, hmult, -⟩ := hargs
  rw [hoa] at himg
  rw [exec_gen_of_ok ha hv] at hgen
  rw [exec_gen_of_ok (by rwa [hn]) (by rwa [himg]), himg, hleft, hn] at hgen'
  cases hgen
  cases hgen'
  refine ⟨rfl, fun k hk => ?_⟩
  simp only [State.complete_buf, State.writeOa_buf, State.writeBuf_buf]
  rw [read_writeList_genValues_inside hmult hk, read_writeList_genValues_inside hmult hk,
    genValues_extendChild ((hasHeadroom_iff _ _).mpr hroom)]

end Sys2Proof.Proofs
end

section
/-! SUPPORT. The error outcome: a failing command raises its error and does nothing else, and which class it raises. -/

namespace Sys2Proof

/-- ILLEGAL's DETAIL bits are BAD_OPCODE and RESERVED_BITS (10_state R22). -/
theorem IllegalCauses.getLsbD_detail (c : IllegalCauses) :
    c.detail.getLsbD 0 = c.badOpcode ∧ c.detail.getLsbD 1 = c.reservedBits ∧ c.detail.getLsbD 2 = false ∧
      c.detail.getLsbD 3 = false := by
  obtain ⟨b, r⟩ := c
  revert b r
  decide

namespace Machine

/-! ### Raising an error (60_exceptions R186) -/

/-- An error changes STATUS and the model's own record. -/
theorem State.raise_eq (e : CmdError) (s : State) :
    s.raise e = { s with
      status := Claims.errorStatus s e.errClass e.detail
      faults := e.record s.latch.word s.faults } := rfl

/-- A command that reports an error has raised it: only a success writes results. -/
theorem exec_eq_raise_of_err {i : Instr} {s t : State} (h : exec i s = .next t) (herr : t.status.err ≠ .none) :
    ∃ e, t = s.raise e := by
  cases i with
  | mix | cexh | check => cases h; exact absurd rfl herr
  | cshr =>
    rcases execCshr_cases h with ⟨-, e⟩ | ⟨-, rfl⟩
    · exact ⟨_, e⟩
    · exact absurd rfl herr
  | gen =>
    rcases execGen_cases h with ⟨-, e⟩ | ⟨-, -, e⟩ | ⟨-, -, rfl⟩
    · exact ⟨_, e⟩
    · exact ⟨_, e⟩
    · exact absurd rfl herr
  | split =>
    rcases execSplit_cases h with ⟨-, e⟩ | ⟨-, rfl⟩
    · exact ⟨_, e⟩
    · exact absurd rfl herr

/-- The completion of any command word in flight that reports an error has raised it. -/
theorem coreStep_eq_raise_of_err {s t : State} (hb : s.status.busy = true) (h : coreStep s = .next t)
    (herr : t.status.err ≠ .none) : ∃ e, t = s.raise e := by
  rcases coreStep_cases h with ⟨hi, -⟩ | ⟨-, i, -, he⟩ | ⟨-, c, -, e⟩
  · simp [hi] at hb
  · exact exec_eq_raise_of_err he herr
  · exact ⟨_, e⟩

/-! ### The class (60_exceptions R181 to R185) -/

/-- INVALID_ARG is GEN's alone (60_exceptions R182). -/
theorem exec_err_invalidArg_iff {i : Instr} {s t : State} (h : exec i s = .next t) :
    t.status.err = .invalidArg ↔ i = .gen ∧ ¬ Claims.ArgsOk s := by
  rw [argsOk_iff]
  cases i with
  | mix | cexh | check => cases h; simp
  | cshr => rcases execCshr_cases h with ⟨-, rfl⟩ | ⟨-, rfl⟩ <;> simp [CmdError.errClass]
  | gen =>
    rcases execGen_cases h with ⟨ha, rfl⟩ | ⟨ha, -, rfl⟩ | ⟨ha, -, rfl⟩ <;> simp [CmdError.errClass, ha]
  | split => rcases execSplit_cases h with ⟨-, rfl⟩ | ⟨-, rfl⟩ <;> simp [CmdError.errClass]

/-- PRECONDITION is raised on the latched image, by GEN only once its argument has passed (60_exceptions R183, R185). -/
theorem exec_err_precondition_iff {i : Instr} {s t : State} (h : exec i s = .next t) :
    t.status.err = .precondition ↔
      (i = .gen ∧ Claims.ArgsOk s ∧ viol s.latch.img ≠ 0#4) ∨ (i = .split ∧ viol s.latch.img ≠ 0#4) ∨
        (i = .cshr ∧ 1 < popcount (cat128 s.latch.img.w8 s.latch.img.w9)) := by
  rw [argsOk_iff]
  cases i with
  | mix | cexh | check => cases h; simp
  | cshr => rcases execCshr_cases h with ⟨hp, rfl⟩ | ⟨hp, rfl⟩ <;> simp [CmdError.errClass, hp]
  | gen =>
    rcases execGen_cases h with ⟨ha, rfl⟩ | ⟨ha, hv, rfl⟩ | ⟨ha, hv, rfl⟩
    · simp [CmdError.errClass, ha]
    · simp [CmdError.errClass, ha, hv]
    · simp [hv]
  | split => rcases execSplit_cases h with ⟨hv, rfl⟩ | ⟨hv, rfl⟩ <;> simp [CmdError.errClass, hv]

/-! ### An illegal word in flight (60_exceptions R181) -/

theorem coreStep_of_illegal {s : State} {c : IllegalCauses} (hb : s.status.busy = true)
    (hd : decode s.latch.word = .error c) : coreStep s = .next (s.raise (.illegalCommand c.detail)) := by
  simp [coreStep, State.fetched, hb, hd]

theorem operandsOfWord_of_illegal {w : Word} {c : IllegalCauses} (hd : decode w = .error c) :
    operandsOfWord w = [] := by
  simp [operandsOfWord, hd]

end Machine
end Sys2Proof
end

section
/-! SUPPORT. The statements of 60_exceptions, settled. -/

namespace Sys2Proof.Proofs

open Sys2Proof Sys2Proof.Machine

/-- Settles O33: the error was raised, and raising one is a write of STATUS and of the record. -/
theorem errorsWriteStatusOnly : Obligations.ErrorsWriteStatusOnly := by
  intro s t hb h herr
  obtain ⟨e, rfl⟩ := coreStep_eq_raise_of_err hb h herr
  exact s.raise_eq e

/-- Settles O34, by whether the word in flight decodes: the decoder alone reports ILLEGAL, and a decoded command reports
the class of its own rule. -/
theorem errorClassPriority : Obligations.ErrorClassPriority := by
  intro s t hb h
  rcases coreStep_cases h with ⟨hi, -⟩ | ⟨-, i, hd, he⟩ | ⟨-, c, hd, rfl⟩
  · simp [hi] at hb
  · obtain ⟨-, hill⟩ := exec_detailLegal he
    rw [State.fetched] at hd
    rw [exec_err_invalidArg_iff he, exec_err_precondition_iff he, hd]
    simp [hill]
  · rw [State.fetched] at hd
    simp [hd, CmdError.errClass]

/-- Settles O39: the causes are the decoder's, and the completion raises them. -/
theorem illegalCommandCompletes : Obligations.IllegalCommandCompletes := by
  intro s hn hb hw
  obtain ⟨-, hcauses⟩ := decoderTotalWithCauses s.latch.word
  obtain ⟨c, hd, hopc, hrsv⟩ := hcauses hw
  obtain ⟨hzero, hone, htwo, hthree⟩ := c.getLsbD_detail
  refine ⟨operandsOfWord_of_illegal hd, c.detail, by rwa [hzero], by rwa [hone], htwo, hthree, ?_⟩
  rw [step_core hn, coreStep_of_illegal (s := s.popTurn) hb hd, State.raise_eq]
  rfl

end Sys2Proof.Proofs
end

section
/-! SUPPORT. Whose turn it is, and that the command in flight ends within its schedule (70_reset R219). -/

namespace Sys2Proof.Machine

/-! ### The turn (20_memory R51, R52) -/

theorem nextTurn_of_nil {s : State} (hs : s.sched = []) (hb : s.status.busy = true) : s.nextTurn = .core := by
  simp [State.nextTurn, hs, hb]

theorem nextTurn_of_cons {s : State} {a : Turn} {l : List Turn} (hs : s.sched = a :: l) : s.nextTurn = a := by
  simp [State.nextTurn, hs]

/-- The core's step answers a next state from every state. -/
theorem coreStep_total (s : State) : ∃ t, coreStep s = .next t := by
  cases hb : s.status.busy with
  | false => exact ⟨s, coreStep_of_idle hb⟩
  | true =>
    cases hd : decode s.latch.word with
    | ok i =>
      rw [coreStep_of_decode hb hd]
      exact exec_total i s
    | error c => exact ⟨_, coreStep_of_illegal hb hd⟩

theorem step_total (s : State) : ∃ t, step s = .next t := by
  cases hn : s.nextTurn with
  | host => exact ⟨_, step_host hn⟩
  | core =>
    rw [step_core hn]
    exact coreStep_total s.popTurn
  | reset => exact ⟨_, step_reset hn⟩

theorem regWrite_sched (a : BitVec 6) (v : Word) (s : State) : (s.regWrite a v).sched = s.sched := by
  rcases regWrite_cases a v s with
    ⟨-, -, e⟩ | ⟨-, -, e⟩ | ⟨-, -, e⟩ | ⟨-, e⟩ | ⟨i, -, e⟩ | e <;> simp [e]

/-- Every step uses up its own turn and no other. -/
theorem step_sched {s t : State} (h : step s = .next t) : t.sched = s.sched.tail := by
  rcases step_effects h with ⟨-, rfl⟩ | ⟨-, -, hc⟩ | ⟨-, a, v, p, -, rfl⟩ | ⟨p, v, fs, d, rfl⟩
  · rfl
  · exact hc.sched
  · exact regWrite_sched a v _
  · rfl

/-! ### The command in flight -/

/-- The host's turn does not end the command in flight. -/
theorem busy_of_step_host {s t : State} (hn : s.nextTurn = .host) (hb : s.status.busy = true)
    (h : step s = .next t) : t.status.busy = true := by
  rcases step_sameCommand h with hr | ⟨hc, -⟩ | ⟨-, hi, -⟩ | hs
  · simp [hn] at hr
  · simp [hn] at hc
  · simp [hb] at hi
  · exact hs.busy.trans hb

/-- The core's turn completes the command in flight. -/
theorem completesTo_of_step_core {s t : State} (hn : s.nextTurn = .core) (hb : s.status.busy = true)
    (h : step s = .next t) : s.popTurn.CompletesTo t := by
  rw [step_core hn] at h
  exact coreStep_completesTo hb h

theorem run_succ {s t : State} (h : step s = .next t) (k : ℕ) :
    Sys2Proof.core.run (k + 1) s = Sys2Proof.core.run k t := by
  have hstep : Sys2Proof.core.step s = .next t := h
  simp only [Host.Core.run, hstep]

/-- The command in flight ends at the first turn that is not the host's, at the latest when the schedule is used up. -/
theorem run_ends_command {s : State} (hb : s.status.busy = true) :
    ∃ (k : ℕ) (t : State), k ≤ s.sched.length + 1 ∧ Sys2Proof.core.run k s = .next t ∧ t.status.busy = false ∧
      (Turn.reset ∉ s.sched → t.status.done = true) := by
  induction hs : s.sched generalizing s with
  | nil =>
    obtain ⟨t, h⟩ := step_total s
    have hc := completesTo_of_step_core (nextTurn_of_nil hs hb) hb h
    exact ⟨1, t, by simp, run_succ h 0, hc.busy, fun _ => hc.done⟩
  | cons a l ih =>
    obtain ⟨t, h⟩ := step_total s
    have hn := nextTurn_of_cons hs
    cases a with
    | host =>
      have hl : t.sched = l := by rw [step_sched h, hs, List.tail_cons]
      obtain ⟨k, u, hk, hrun, hbusy, hdone⟩ := ih (busy_of_step_host hn hb h) hl
      exact ⟨k + 1, u, by simpa using hk, (run_succ h k).trans hrun, hbusy,
        fun hr => hdone (List.not_mem_of_not_mem_cons hr)⟩
    | core =>
      have hc := completesTo_of_step_core hn hb h
      exact ⟨1, t, by simp, run_succ h 0, hc.busy, fun _ => hc.done⟩
    | reset => exact ⟨1, _, by simp, run_succ (step_reset hn) 0, rfl, fun hr => absurd List.mem_cons_self hr⟩

end Sys2Proof.Machine
end

section
/-! SUPPORT. Two runs of a command on the same latched operands leave the same results (70_reset R221). -/

namespace Sys2Proof.Machine

/-- From `s` to `s'` and from `u` to `u'` the same results were written: each result location keeps its value in both
runs or takes the same value in both. -/
structure State.SameResults (s u s' u' : State) : Prop where
  oa : ∀ k : Fin 10, (s'.oa.get k = s.oa.get k ∧ u'.oa.get k = u.oa.get k) ∨ s'.oa.get k = u'.oa.get k
  ob : ∀ k : Fin 10, (s'.ob.get k = s.ob.get k ∧ u'.ob.get k = u.ob.get k) ∨ s'.ob.get k = u'.ob.get k
  res : (s'.res = s.res ∧ u'.res = u.res) ∨ s'.res = u'.res
  buf : ∀ k : ℕ, (Memory.read s'.buf k = Memory.read s.buf k ∧ Memory.read u'.buf k = Memory.read u.buf k) ∨
    Memory.read s'.buf k = Memory.read u'.buf k

/-- The two runs also ended the same: with one error class and one set of cause bits. -/
structure State.SameOutcome (s u s' u' : State) : Prop extends State.SameResults s u s' u' where
  err : s'.status.err = u'.status.err
  detail : s'.status.detail = u'.status.detail

namespace State.SameResults

/-- Before the first write every location keeps its value. -/
theorem refl (s u : State) : SameResults s u s u :=
  ⟨fun _ => .inl ⟨rfl, rfl⟩, fun _ => .inl ⟨rfl, rfl⟩, .inl ⟨rfl, rfl⟩, fun _ => .inl ⟨rfl, rfl⟩⟩

variable {s u s' u' : State}

/-! The same write on both sides keeps the relation. -/

theorem writeOaBlock (h : SameResults s u s' u') (b : Block) :
    SameResults s u (s'.writeOaBlock b) (u'.writeOaBlock b) where
  oa k := match k, h.oa k with
    | 0, _ | 1, _ | 2, _ | 3, _ => .inr rfl
    | 4, hk | 5, hk | 6, hk | 7, hk | 8, hk | 9, hk => hk
  ob := h.ob
  res := h.res
  buf := h.buf

theorem writeOaCursor (h : SameResults s u s' u') (c : Word × Word) :
    SameResults s u (s'.writeOaCursor c) (u'.writeOaCursor c) where
  oa k := match k, h.oa k with
    | 8, _ | 9, _ => .inr rfl
    | 0, hk | 1, hk | 2, hk | 3, hk | 4, hk | 5, hk | 6, hk | 7, hk => hk
  ob := h.ob
  res := h.res
  buf := h.buf

theorem writeOa (h : SameResults s u s' u') (g : Image) : SameResults s u (s'.writeOa g) (u'.writeOa g) :=
  ⟨fun _ => .inr rfl, h.ob, h.res, h.buf⟩

theorem writeOb (h : SameResults s u s' u') (g : Image) : SameResults s u (s'.writeOb g) (u'.writeOb g) :=
  ⟨h.oa, fun _ => .inr rfl, h.res, h.buf⟩

theorem writeRes (h : SameResults s u s' u') (v : Word) : SameResults s u (s'.writeRes v) (u'.writeRes v) :=
  ⟨h.oa, h.ob, .inr rfl, h.buf⟩

theorem writeBuf (h : SameResults s u s' u') (vs : List Word) :
    SameResults s u (s'.writeBuf vs) (u'.writeBuf vs) where
  oa := h.oa
  ob := h.ob
  res := h.res
  buf k := by
    rw [State.writeBuf_buf, State.writeBuf_buf]
    rcases lt_or_ge k vs.length with hk | hk
    · have hread : ∀ m, Memory.read (Memory.writeList m 0 vs) k = vs[k]? := fun m => by
        rw [← Memory.read_writeList_inside (m := m) (i := 0) hk, Nat.zero_add]
      exact .inr (by rw [hread, hread])
    · have hread : ∀ m, Memory.read (Memory.writeList m 0 vs) k = Memory.read m k := fun m =>
        Memory.read_writeList_outside (.inr (by omega))
      rw [hread, hread]
      exact h.buf k

/-! A command's end writes no result. -/

theorem complete (h : SameResults s u s' u') : SameOutcome s u s'.complete u'.complete :=
  ⟨⟨h.oa, h.ob, h.res, h.buf⟩, rfl, rfl⟩

theorem raise (h : SameResults s u s' u') (e : CmdError) : SameOutcome s u (s'.raise e) (u'.raise e) :=
  ⟨⟨h.oa, h.ob, h.res, h.buf⟩, rfl, rfl⟩

end State.SameResults

/-- A command's rule speaks of the latched operands alone, so both runs raise one error or write the same results. -/
theorem exec_sameOutcome {i : Instr} {s u s' u' : State} (himg : s.latch.img = u.latch.img)
    (hn : s.latch.nlen = u.latch.nlen) (h : exec i s = .next s') (h' : exec i u = .next u') :
    s.SameOutcome u s' u' := by
  have hsame := State.SameResults.refl s u
  cases i with
  | mix =>
    cases h; cases h'
    rw [himg]
    exact (hsame.writeOaBlock _).complete
  | cexh | check =>
    cases h; cases h'
    rw [himg]
    exact (hsame.writeRes _).complete
  | cshr =>
    cases h; cases h'
    rw [himg]
    cases cshrRule u.latch.img.w8 u.latch.img.w9 with
    | error e => exact hsame.raise e
    | ok c => exact (hsame.writeOaCursor c).complete
  | gen =>
    cases h; cases h'
    rw [himg, hn]
    cases genRule Config.maxN u.latch.img u.latch.nlen with
    | error e => exact hsame.raise e
    | ok tr => exact ((hsame.writeBuf _).writeOa _).complete
  | split =>
    cases h; cases h'
    rw [himg]
    cases splitRule u.latch.img with
    | error e => exact hsame.raise e
    | ok c => exact ((hsame.writeOa c.1).writeOb c.2).complete

end Sys2Proof.Machine
end

section
/-! SUPPORT. The fault record: what a completion, each host access and each step add to it (70_reset R224). -/

namespace Sys2Proof.Machine

/-! ### The completion (60_exceptions R188) -/

/-- From `s` to `t` exactly a PRECONDITION report is recorded. -/
structure State.RecordsReport (s t : State) : Prop where
  precondition : t.status.err = .precondition →
    t.faults = .precondition s.latch.word t.status.detail :: s.faults
  other : t.status.err ≠ .precondition → t.faults = s.faults

theorem State.recordsReport_raise (e : CmdError) (s : State) : s.RecordsReport (s.raise e) := by
  cases e with
  | illegalCommand d | invalidArgument d => exact ⟨nofun, fun _ => rfl⟩
  | preconditionViolation d => exact ⟨fun _ => rfl, absurd rfl⟩

/-- A success reports nothing, whatever results it writes. -/
theorem State.recordsReport_complete (s : State) (oa ob : Bank Reg) (res : Reg) (buf : Memory) :
    s.RecordsReport (State.complete { s with oa := oa, ob := ob, res := res, buf := buf }) :=
  ⟨nofun, fun _ => rfl⟩

theorem exec_recordsReport {i : Instr} {s t : State} (h : exec i s = .next t) : s.RecordsReport t := by
  cases i with
  | mix | cexh | check => cases h; exact s.recordsReport_complete _ _ _ _
  | cshr =>
    rcases execCshr_cases h with ⟨-, rfl⟩ | ⟨-, rfl⟩
    · exact s.recordsReport_raise _
    · exact s.recordsReport_complete _ _ _ _
  | gen =>
    rcases execGen_cases h with ⟨-, rfl⟩ | ⟨-, -, rfl⟩ | ⟨-, -, rfl⟩
    · exact s.recordsReport_raise _
    · exact s.recordsReport_raise _
    · exact s.recordsReport_complete _ _ _ _
  | split =>
    rcases execSplit_cases h with ⟨-, rfl⟩ | ⟨-, rfl⟩
    · exact s.recordsReport_raise _
    · exact s.recordsReport_complete _ _ _ _

theorem coreStep_recordsReport {s t : State} (hb : s.status.busy = true) (h : coreStep s = .next t) :
    s.RecordsReport t := by
  rcases coreStep_cases h with ⟨hi, -⟩ | ⟨-, i, -, he⟩ | ⟨-, c, -, rfl⟩
  · simp [hi] at hb
  · exact exec_recordsReport he
  · exact s.recordsReport_raise _

/-! ### The accept (10_state R29) -/

theorem State.mem_missingOperands_iff (s : State) (w : Word) (r : RegName) :
    r ∈ s.missingOperands w ↔ r ∈ operandsOfWord w ∧ s.holds r = false := by
  simp [State.missingOperands]

theorem State.accept_faults_of_held {s : State} {w : Word} (h : ∀ r ∈ operandsOfWord w, s.holds r = true) :
    (s.accept w).faults = s.faults := by
  rcases acceptRecord_cases s w with e | ⟨⟨r, hr, hv⟩, -⟩
  · exact e
  · simp [h r hr] at hv

theorem State.accept_faults_of_missing {s : State} {w : Word} (h : ∃ r ∈ operandsOfWord w, s.holds r = false) :
    (s.accept w).faults = .valuelessAccept w (s.missingOperands w) :: s.faults := by
  obtain ⟨r, hr⟩ := h
  have hmem := (s.mem_missingOperands_iff w r).mpr hr
  rw [State.accept_faults, State.acceptRecord]
  cases hm : s.missingOperands w with
  | nil => simp [hm] at hmem
  | cons r rs => rfl

/-! ### The host's accesses -/

/-- The next access of the host adds the event `e` to the record. -/
inductive State.HostEvent (s : State) : FaultEvent → Prop
  | regRead (r : RegName) (p : List HostOp) (hp : s.prog = .regRead r.addr :: p) (hr : s.holds r = false) :
      s.HostEvent (.valuelessRead (.reg r))
  | bufRead (i : BitVec 32) (p : List HostOp) (hp : s.prog = .bufRead i :: p) (hi : i.toNat < Config.maxN)
      (hv : Memory.read s.buf i.toNat = none) : s.HostEvent (.valuelessRead (.buf i.toNat))
  | accept (w : Word) (hw : Claims.Writes s RegName.cmd.addr w) (hb : s.status.busy = false)
      (hr : ∃ r ∈ operandsOfWord w, s.holds r = false) : s.HostEvent (.valuelessAccept w (s.missingOperands w))

/-- A host write records only as an accept of a value-less operand. -/
theorem regWrite_faults (a : BitVec 6) (v : Word) (s : State) :
    (s.regWrite a v).faults = s.faults ∨
      (a = RegName.cmd.addr ∧ s.status.busy = false ∧ (∃ r ∈ operandsOfWord v, s.holds r = false) ∧
        (s.regWrite a v).faults = .valuelessAccept v (s.missingOperands v) :: s.faults) := by
  rcases regWrite_cases a v s with
    ⟨-, -, e⟩ | ⟨ha, hb, e⟩ | ⟨-, -, e⟩ | ⟨-, e⟩ | ⟨i, -, e⟩ | e
  case inr.inl =>
    rw [e]
    exact (acceptRecord_cases s v).imp_right fun ⟨hr, hf⟩ => ⟨(RegName.ofAddr_eq_some _ _ ha).symm, hb, hr, hf⟩
  all_goals exact .inl (by rw [e])

theorem hostStep_faults_of_write {s : State} {a : BitVec 6} {v : Word} {p : List HostOp}
    (hp : s.prog = .regWrite a v :: p ∨ (s.prog = .regWriteLast a :: p ∧ v = s.rdata))
    (he : s.hostStep = State.regWrite a v { s with prog := p }) :
    s.hostStep.faults = s.faults ∨ ∃ e, s.HostEvent e ∧ s.hostStep.faults = e :: s.faults := by
  rw [he]
  rcases regWrite_faults a v { s with prog := p } with hf | ⟨rfl, hb, hr, hf⟩
  · exact .inl hf
  · exact .inr ⟨_, .accept v ⟨p, hp⟩ hb hr, hf⟩

/-- What the host's step adds to the record: nothing, or its one event. -/
theorem hostStep_faults (s : State) :
    s.hostStep.faults = s.faults ∨ ∃ e, s.HostEvent e ∧ s.hostStep.faults = e :: s.faults := by
  rcases hp : s.prog with _ | ⟨op, p⟩
  · exact .inl (by rw [hostStep_of_nil hp])
  · cases op with
    | regWrite a v => exact hostStep_faults_of_write (.inl hp) (hostStep_of_regWrite hp)
    | regWriteLast a => exact hostStep_faults_of_write (.inr ⟨hp, rfl⟩) (hostStep_of_regWriteLast hp)
    | regRead a =>
      rw [hostStep_of_regRead hp, regRead_faults]
      cases ha : RegName.ofAddr a with
      | none => exact .inl rfl
      | some r =>
        obtain rfl := RegName.ofAddr_eq_some _ _ ha
        cases hr : s.holds r with
        | true => exact .inl (if_pos hr)
        | false => exact .inr ⟨_, .regRead r p hp hr, if_neg (Bool.eq_false_iff.mp hr)⟩
    | bufRead i =>
      rw [hostStep_of_bufRead hp, bufRead_faults]
      split
      next h =>
        obtain ⟨hi, hv⟩ := h
        exact .inr ⟨_, .bufRead i p hp hi hv, rfl⟩
      next => exact .inl rfl
    | wait =>
      cases hb : s.status.busy with
      | true => exact .inl (by rw [hostStep_of_wait_of_busy hp hb])
      | false => exact .inl (by rw [hostStep_of_wait_of_idle hp hb])

/-! ### The step -/

/-- What a step adds to the record: nothing, a PRECONDITION report at a completion, or the event of a host access. -/
theorem step_faults {s t : State} (h : step s = .next t) :
    t.faults = s.faults ∨
    (s.nextTurn = .core ∧ s.status.busy = true ∧ t.status.err = .precondition ∧
      t.faults = .precondition s.latch.word t.status.detail :: s.faults) ∨
    (s.nextTurn = .host ∧ ∃ e, s.popTurn.HostEvent e ∧ t.faults = e :: s.faults) := by
  rcases step_cases h with ⟨hn, rfl⟩ | ⟨hn, hc⟩ | ⟨-, rfl⟩
  · exact (hostStep_faults s.popTurn).imp_right fun he => .inr ⟨hn, he⟩
  · rcases coreStep_cases hc with ⟨-, rfl⟩ | ⟨hb, -⟩ | ⟨hb, -⟩
    · exact .inl rfl
    all_goals
      have hrec := coreStep_recordsReport hb hc
      by_cases herr : t.status.err = .precondition
      · exact .inr (.inl ⟨hn, hb, herr, hrec.precondition herr⟩)
      · exact .inl (hrec.other herr)
  · exact .inl rfl

end Sys2Proof.Machine
end

section
/-! SUPPORT. The statements of 70_reset_and_hazards, settled. -/

namespace Sys2Proof.Proofs

open Sys2Proof Sys2Proof.Machine

/-- Settles O36: both runs follow the same rule on the same operands. -/
theorem resultsDependOnLatchesOnly : Obligations.ResultsDependOnLatchesOnly := by
  intro i s u s' u' himg hn h h'
  have hsame := exec_sameOutcome himg hn h h'
  exact ⟨hsame.err, hsame.detail, hsame.oa, hsame.ob, hsame.res, hsame.buf⟩

/-- Settles O44, by induction on the schedule: each of its turns is the host's, or ends the command. -/
theorem acceptedCommandCompletes : Obligations.AcceptedCommandCompletes :=
  fun _ => run_ends_command

/-- Settles O51, event by event, and the last clause by what a step adds to the record. -/
theorem faultEventsRecorded : Obligations.FaultEventsRecorded := by
  refine ⟨fun s t hb h => ?_, fun s r => ?_, fun s i => ?_, fun s w => ?_, fun s t h hne => ?_⟩
  · have hrec := coreStep_recordsReport hb h
    exact ⟨hrec.precondition, hrec.other⟩
  · rw [regRead_faults, RegName.ofAddr_addr]
    exact ⟨fun hr => if_pos hr, fun hr => if_neg (by simp [hr])⟩
  · rw [bufRead_faults]
    exact ⟨fun hi hv => if_pos ⟨hi, hv⟩, fun _ hv => if_neg fun ⟨_, hnone⟩ => hv hnone,
      fun hi => if_neg fun ⟨hlt, _⟩ => Nat.not_lt.mpr hi hlt⟩
  · exact ⟨State.accept_faults_of_held, fun hr =>
      ⟨s.missingOperands w, State.accept_faults_of_missing hr, s.mem_missingOperands_iff w⟩⟩
  · rcases step_faults h with hf | hcore | ⟨hn, e, he, hf⟩
    · exact absurd hf hne
    · exact .inl hcore
    · refine .inr ⟨hn, ?_⟩
      cases he with
      | regRead r p hp hr => exact .inl ⟨r, p, hp, hr, hf⟩
      | bufRead i p hp hi hv => exact .inr (.inl ⟨i, p, hp, hi, hv, hf⟩)
      | accept w hw hb hr => exact .inr (.inr ⟨hb, w, _, hw, hr, hf⟩)

/-- Settles O52: a step leaves the record or puts one entry in front of it. -/
theorem faultRecordNeverCleared : Obligations.FaultRecordNeverCleared := by
  intro s t h
  rcases step_faults h with hf | ⟨-, -, -, hf⟩ | ⟨-, e, -, hf⟩
  · exact hf ▸ List.suffix_refl _
  · exact hf ▸ List.suffix_cons _ _
  · exact hf ▸ List.suffix_cons _ _

/-- Settles O54: the reset step leaves the reset values, and the model's own fields as they were. -/
theorem resetAtAnyTime : Obligations.ResetAtAnyTime := by
  intro s hn
  obtain ⟨hbusy, hcmd, hword, hholds, hbuf⟩ := resetValues
  exact ⟨_, step_reset hn, hbusy, hcmd, hword, hholds, hbuf, rfl, rfl, rfl, rfl, rfl⟩

end Sys2Proof.Proofs
end

section
/-! SUPPORT. The reference transcription of 40_blockmix R100 to R106 in natural numbers, tied operation by operation to
the model's MIX. -/

namespace Sys2Proof.Machine

/-! ### The extended key and the injection (40_blockmix R100, R101) -/

theorem refKey_nats (k : Block) :
    Claims.refKey (Claims.nats k) = [k.x0.toNat, k.x1.toNat, k.x2.toNat, k.x3.toNat, (parityWord k).toNat] := by
  have hparity : parityWord k = Config.c240 ^^^ k.x0 ^^^ k.x1 ^^^ k.x2 ^^^ k.x3 := by
    rw [parityWord]
    ac_rfl
  rw [hparity]
  simp only [BitVec.toNat_xor]
  rfl

theorem refKey_getD (k : Block) (j : ℕ) :
    (Claims.refKey (Claims.nats k)).getD (j % 5) 0 = (extendedKey k j).toNat := by
  rw [refKey_nats]
  unfold extendedKey
  have hj : j % 5 < 5 := Nat.mod_lt _ (by decide)
  interval_cases j % 5 <;> rfl

theorem nats_inject (k x : Block) (s : ℕ) :
    Claims.nats (inject k x s) = Claims.refInject (Claims.refKey (Claims.nats k)) (Claims.nats x) s := by
  have hrange : List.range 4 = [0, 1, 2, 3] := rfl
  simp only [Claims.refInject, refKey_getD, hrange]
  simp [Claims.nats, inject, BitVec.toNat_add]

/-! ### The round (40_blockmix R102 to R104) -/

/-- The bits rotated out fall below those shifted up, so that the model's `or` is the reference's sum. -/
theorem toNat_rotl64 (a : Word) {r : ℕ} (hr : r < 64) : (rotl64 a r).toNat = Claims.refRotl a.toNat r := by
  have hpow : 2 ^ 64 = 2 ^ r * 2 ^ (64 - r) := by rw [← pow_add, Nat.add_sub_cancel' hr.le]
  have hlow : a.toNat / 2 ^ (64 - r) < 2 ^ r := Nat.div_lt_of_lt_mul (by rw [mul_comm, ← hpow]; exact a.isLt)
  have hhigh : a.toNat * 2 ^ r % 2 ^ 64 = 2 ^ r * (a.toNat % 2 ^ (64 - r)) := by
    rw [mul_comm, hpow, Nat.mul_mod_mul_left]
  rw [rotl64, BitVec.toNat_or, BitVec.toNat_shiftLeft, BitVec.toNat_ushiftRight, Nat.shiftLeft_eq,
    Nat.shiftRight_eq_div_pow, Claims.refRotl, hhigh, Nat.two_pow_add_eq_or_of_lt hlow]

theorem refRot_getD (g : ℕ) : Claims.refRot.getD (g % 8) [] = [(rot4 g).1, (rot4 g).2] := by
  unfold rot4
  have hg : g % 8 < 8 := Nat.mod_lt _ (by decide)
  interval_cases g % 8 <;> rfl

theorem nats_mixRound (x : Block) (g : ℕ) :
    Claims.nats (mixRound x g) = Claims.refRound (Claims.nats x) g := by
  obtain ⟨hr0, hr1⟩ := rot4_lt g
  simp only [Claims.refRound, refRot_getD]
  simp [Claims.nats, mixRound, permute, toNat_rotl64 _ hr0, toNat_rotl64 _ hr1, BitVec.toNat_add]

/-! ### The stages (40_blockmix R106) -/

/-- Round g of the reference with the injection that comes before it, if any: what `Claims.refMix` folds. -/
def refTurn (ek x : List ℕ) (g : ℕ) : List ℕ :=
  Claims.refRound (if g % 4 = 0 then Claims.refInject ek x (g / 4) else x) g

/-- The four rounds of stage s. -/
def stageRounds (s : ℕ) : List ℕ := [4 * s, 4 * s + 1, 4 * s + 2, 4 * s + 3]

theorem refMix_eq_foldl_stages (k p : List ℕ) :
    Claims.refMix k p = (List.range 5).foldl (fun x s => (stageRounds s).foldl (refTurn (Claims.refKey k)) x) p :=
  rfl

theorem foldl_stageRounds (k x : Block) (s : ℕ) :
    (stageRounds s).foldl (refTurn (Claims.refKey (Claims.nats k))) (Claims.nats x) = Claims.nats (mixStage k x s) := by
  have hinject : 4 * s % 4 = 0 ∧ 4 * s / 4 = s := by omega
  have hplain : (4 * s + 1) % 4 ≠ 0 ∧ (4 * s + 2) % 4 ≠ 0 ∧ (4 * s + 3) % 4 ≠ 0 := by omega
  simp only [stageRounds, List.foldl_cons, List.foldl_nil, refTurn, hinject, hplain, if_true, if_false, ← nats_inject,
    ← nats_mixRound, mixStage]

theorem nats_mix (k p : Block) : Claims.nats (mix k p) = Claims.refMix (Claims.nats k) (Claims.nats p) := by
  have hrange : List.range 5 = [0, 1, 2, 3, 4] := rfl
  simp only [refMix_eq_foldl_stages, hrange, List.foldl_cons, List.foldl_nil, foldl_stageRounds, mix_eq_mixWith_false,
    mixWith_false]

/-! ### The zero key and plaintext (40_blockmix R107) -/

theorem mix_zero_zero :
    mix ⟨0#64, 0#64, 0#64, 0#64⟩ ⟨0#64, 0#64, 0#64, 0#64⟩ =
      ⟨0x09218EBDE6C85537#64, 0x55941F5266D86105#64, 0x4BD25E16282434DC#64, 0xEE29EC846BD2E406#64⟩ := by
  decide

end Sys2Proof.Machine
end

section
/-! SUPPORT. The statements of 40_blockmix on MIX as a function of key and plaintext, settled. -/

namespace Sys2Proof.Proofs

open Sys2Proof Sys2Proof.Machine

/-- Settles O9: twenty rounds are evaluated once, and the final injection is one more step from their block. -/
theorem mixWorkedExample : Obligations.MixWorkedExample := by
  refine ⟨mix_zero_zero, ?_⟩
  rw [mixWith_true, ← mix_eq_mixWith_false, mix_zero_zero]
  rfl

/-- Settles O10, from the agreement of each injection and each round with the reference's. -/
theorem mixMatchesReference : Obligations.MixMatchesReference := nats_mix

/-- Settles O12: every injection and every round can be undone. -/
theorem mixInjectiveInPlaintext : Obligations.MixInjectiveInPlaintext := fun k _ _ h => mix_injective k h

end Sys2Proof.Proofs
end
